-- ==== Sys2Proof/Word.lean ====
section
/-! DEFINITION. The integers and bytes of the block (00_scope.md R7): every value is an unsigned
integer of a stated width or a finite sequence of bytes. -/

namespace Sys2Proof

/-- A byte is a u8 (R7). -/
abbrev Byte := BitVec 8

/-- A u16: universe, synchronization universe, lengths. -/
abbrev Half := BitVec 16

/-- A u32: the command word (30_encoding.md R42), `RESULT`, an IPv4 address. -/
abbrev Word := BitVec 32

/-- `zeros(k)`: the sequence of k bytes 0x00 (R7). -/
abbrev zeros (k : Nat) : List Byte := List.replicate k 0#8

end Sys2Proof
end

