-- ==== Sys2Proof/Config.lean ====
section
/-! DEFINITION. The constants the document fixes (00_scope.md R5), the implementation parameters
(00_scope.md R6), and the free values: constants without a body, of which nothing can be proved. -/

namespace Sys2Proof.Config

/-! ## Constants the document fixes (R5) -/

/-- Bytes in the root layer. -/
def rootSize : Nat := 38
/-- Bytes in the framing layer. -/
def framingSize : Nat := 77
/-- Bytes in the DMP layer before the channel data, START Code included. -/
def dmpFixedSize : Nat := 11
/-- Offset of the first channel byte. -/
def headerSize : Nat := 126
/-- Largest channel-data length. -/
def dmxMax : Nat := 512
/-- Largest packet; the size of `TX` (10_state.md R25). -/
def packetMax : Nat := 638
/-- Bytes in the source-name field. -/
def nameField : Nat := 64
/-- Largest stored name length. -/
def nameMax : Nat := 63
/-- Bytes in the component identifier. -/
def cidSize : Nat := 16
/-- Flag nibble of every flags+length field, as the u8 operand of `PACKFL`. -/
def flags : Byte := 0x07#8
/-- Root layer constant. -/
def preambleSize : Half := 0x0010#16
/-- Root layer constant. -/
def postambleSize : Half := 0x0000#16
/-- "ASC-E1.17" null-padded to 12 bytes (42_root_layer.md R69). -/
def acnPid : List Byte :=
  [0x41#8, 0x53#8, 0x43#8, 0x2D#8, 0x45#8, 0x31#8, 0x2E#8, 0x31#8, 0x37#8, 0x00#8, 0x00#8, 0x00#8]
/-- "Set Property". -/
def dmpVector : Byte := 0x02#8
/-- Address and data type. -/
def dmpAddrType : Byte := 0xA1#8
/-- First property address. -/
def dmpFirstAddr : Half := 0x0000#16
/-- Address increment. -/
def dmpAddrInc : Half := 0x0001#16
/-- DMX512-A START Code. -/
def startCode : Byte := 0x00#8
/-- The root length field holds total − 15. -/
def rootLenAdj : Half := 15#16
/-- The DMP length field holds total − 114. -/
def dmpLenAdj : Half := 114#16
/-- Options bit 6. -/
def optPreview : Byte := 0x40#8
/-- Options bit 5. -/
def optTerminated : Byte := 0x20#8
/-- Options bit 4. -/
def optForceSync : Byte := 0x10#8
/-- Upper two octets of the destination, 239.255. -/
def mcastBase : Word := 0xEFFF0000#32
/-- Reset value of the priority register (90_conflicts.md C4). -/
def prioDefault : Byte := 100#8

/-! ## Parameters the document leaves open (R6) -/

/-- `ROOT_VECTOR`: open (92_eei_decisions.md D6), so it has no body here (log entry 7). -/
opaque rootVector : Word
/-- `FRAMING_VECTOR`: open (92_eei_decisions.md D7), so it has no body here (log entry 7). -/
opaque framingVector : Word

/-- The admissible settings of `FRAME_LEN_ADJ`; no other value is meaningful (92_eei_decisions.md D8). -/
inductive FrameLenAdj
  /-- 37, by the document's general formula: the decided setting (90_conflicts.md C1). -/
  | formula
  /-- 47, the number the document prints: the only other setting (93_implementation_defined.md U15). -/
  | printed
deriving DecidableEq, Repr

/-- What the framing layer subtracts from the total length (43_framing_layer.md R74). -/
def FrameLenAdj.value : FrameLenAdj → Half
  | .formula => 37#16
  | .printed => 47#16

/-- The parameters that are numbers: fixed for one machine, and arguments of everything that depends on
them, so that a statement names them (R6; log entries 8, 9 and 19). -/
structure Params where
  /-- `FRAME_LEN_ADJ`. -/
  frameLenAdj : FrameLenAdj
  /-- `IN_SIZE`: how many bytes the input memory has. -/
  inSize : Nat
deriving DecidableEq, Repr

/-- The setting the spec decides: 37 (D8) and 512 (D4). -/
def decided : Params := ⟨.formula, 512⟩

/-! ## Free values: what the spec calls unspecified, "any value" (10_state.md R27)

None of them has the block, or the run, among its arguments: two blocks in sender instances of one number
agree on them. The spec leaves that open and the model settles it so (DESIGN CHOICE, unsafe for a claim
that compares two blocks or two runs; 60_exceptions.md R113; log entry 20). -/

/-- What byte `addr` of `IN` holds in sender instance number `life` until the host writes it
(R27, R58; 93_implementation_defined.md U7; log entry 5). The same for every block whose sender instance has that
number: DESIGN CHOICE, log entry 20. -/
opaque powerOnIn (life addr : Nat) : Byte
/-- What a host read of `CID[i]` answers in sender instance `life` before `LDCID`
(93_implementation_defined.md U6; log entry 4); the same for every block (log entry 20). -/
opaque powerOnCid (life i : Nat) : Byte
/-- The same of `NAME[i]` before `LDNAME` (log entries 4 and 20). -/
opaque powerOnName (life i : Nat) : Byte
/-- The same of `UNIV` before `SETUNIV` (log entries 4 and 20). -/
opaque powerOnUniv (life : Nat) : Half
/-- What a host read of `TX[addr]` outside the packet answers, when it is the host's answer number
`k` (20_memory.md R41; 93_implementation_defined.md U8; log entry 6); the same for every block (log entry 20). -/
opaque unspecifiedTx (k addr : Nat) : Byte

end Sys2Proof.Config
end

