-- ==== Sys2Proof/Syntax.lean ====
section
/-! DEFINITION. The twelve commands (30_encoding.md R45), one constructor per row of
spec/opcode_table.json, operands in the order of rule R45's operand column, each as wide as its field
(R43, R44). -/

namespace Sys2Proof

inductive Instr
  /-- `LDCID`: load the component identifier from `IN[0..15]` (46_sender.md R88). -/
  | ldcid
  /-- `LDNAME len`: load the source name from `IN[0..len−1]` (41_utf8_truncation.md R67). -/
  | ldname (len : Half)
  /-- `SETUNIV u`: set the universe number (R89). -/
  | setuniv (u : Half)
  /-- `SETPRIO p`: set the priority (R90). -/
  | setprio (p : Byte)
  /-- `SETSYNC s`: set the synchronization universe (R91). -/
  | setsync (sync : Half)
  /-- `SETOPT mask`: set the three option flags; `mask` is `W[7:0]` (R48, R92). -/
  | setopt (mask : Byte)
  /-- `COMMIT`: end construction (R93). -/
  | commit
  /-- `NEXTSEQ`: advance the sequence counter (R94). -/
  | nextseq
  /-- `FRAME seq, n`: assemble a packet (45_assembler.md R85). -/
  | frame (seq : Byte) (n : Half)
  /-- `SEND n`: assemble a packet with the next sequence number and hand it over (R95). -/
  | send (n : Half)
  /-- `MCADDR u`: compute a multicast address (R97). -/
  | mcaddr (u : Half)
  /-- `PACKFL flags, len`: pack a flags+length field (40_primitives.md R60). -/
  | packfl (flags : Byte) (len : Half)
deriving DecidableEq, Repr

/-- The one pseudo-instruction: `PACKFL len` means `PACKFL 0x07, len` (30_encoding.md R49). -/
def Instr.packflDefault (len : Half) : Instr := .packfl Config.flags len

/-- The command as the spec writes it, operands in decimal (30_encoding.md R48). -/
def Instr.asm : Instr → String
  | .ldcid => "LDCID"
  | .ldname len => "LDNAME " ++ toString len.toNat
  | .setuniv u => "SETUNIV " ++ toString u.toNat
  | .setprio p => "SETPRIO " ++ toString p.toNat
  | .setsync sync => "SETSYNC " ++ toString sync.toNat
  | .setopt mask => "SETOPT " ++ toString mask.toNat
  | .commit => "COMMIT"
  | .nextseq => "NEXTSEQ"
  | .frame seq n => "FRAME " ++ toString seq.toNat ++ ", " ++ toString n.toNat
  | .send n => "SEND " ++ toString n.toNat
  | .mcaddr u => "MCADDR " ++ toString u.toNat
  | .packfl flags len => "PACKFL " ++ toString flags.toNat ++ ", " ++ toString len.toNat

/-- Is the command `FRAME` or `SEND`? An error of one of these two also withdraws the packet
(60_exceptions.md R109 (b)). -/
def Instr.framesPacket : Instr → Bool
  | .frame _ _ => true
  | .send _ => true
  | .ldcid => false
  | .ldname _ => false
  | .setuniv _ => false
  | .setprio _ => false
  | .setsync _ => false
  | .setopt _ => false
  | .commit => false
  | .nextseq => false
  | .mcaddr _ => false
  | .packfl _ _ => false

end Sys2Proof
end

