-- ==== Sys2Proof/WellFormed.lean ====
section
/-! DEFINITION. Which terms of `Instr` are commands the block has. Every operand but one may take any
value of its field (30_encoding.md R44: range checks are made by the command's semantics, not at
decode); the mask of `SETOPT` may use only the three option bits (R46 (b)). -/

namespace Sys2Proof

/-- The option bits a `SETOPT` mask may set: P, T, F at bits 6, 5, 4 (30_encoding.md R43 format O). -/
def optionBits : Byte := Config.optPreview ||| Config.optTerminated ||| Config.optForceSync

/-- A mask with any of the bits 0x8F set is no `SETOPT` (46_sender.md R92). -/
def maskWellFormed (mask : Byte) : Bool := mask &&& ~~~optionBits == 0#8

def Instr.wellFormed : Instr → Bool
  | .setopt mask => maskWellFormed mask
  | .ldcid => true
  | .ldname _ => true
  | .setuniv _ => true
  | .setprio _ => true
  | .setsync _ => true
  | .commit => true
  | .nextseq => true
  | .frame _ _ => true
  | .send _ => true
  | .mcaddr _ => true
  | .packfl _ _ => true

end Sys2Proof
end

