-- ==== Sys2Proof/Decode.lean ====
section
/-! DEFINITION. The decoder of command words, total on all 2^32 words (30_encoding.md R46), and the
encoder, both written from rules R43 to R45. -/

namespace Sys2Proof

/-! ## Operand fields (R43, R44): unsigned, no extension, scaling or shifting -/

/-- `W[31:24]`. -/
def opcodeOf (w : Word) : Byte := w.extractLsb' 24 8
/-- `imm16 = W[15:0]`. -/
def imm16 (w : Word) : Half := w.extractLsb' 0 16
/-- `imm8 = W[7:0]`; for format O the option mask, `W[7:0]` (R44, R48). -/
def imm8 (w : Word) : Byte := w.extractLsb' 0 8
/-- `a8 = W[23:16]`. -/
def a8 (w : Word) : Byte := w.extractLsb' 16 8

/-! ## The opcode map (R45) -/

/-- One row of rule R45: `W` spells the command exactly when `W & mask = match`. -/
structure OpRow where
  mnemonic : String
  pattern : Word
  mask : Word
  build : Word → Instr

def OpRow.spells (r : OpRow) (w : Word) : Bool := w &&& r.mask == r.pattern

def opcodeTable : List OpRow := [
  ⟨"LDCID",   0x01000000#32, 0xFFFFFFFF#32, fun _ => .ldcid⟩,
  ⟨"LDNAME",  0x02000000#32, 0xFFFF0000#32, fun w => .ldname (imm16 w)⟩,
  ⟨"SETUNIV", 0x03000000#32, 0xFFFF0000#32, fun w => .setuniv (imm16 w)⟩,
  ⟨"SETPRIO", 0x04000000#32, 0xFFFFFF00#32, fun w => .setprio (imm8 w)⟩,
  ⟨"SETSYNC", 0x05000000#32, 0xFFFF0000#32, fun w => .setsync (imm16 w)⟩,
  ⟨"SETOPT",  0x06000000#32, 0xFFFFFF8F#32, fun w => .setopt (imm8 w)⟩,
  ⟨"COMMIT",  0x07000000#32, 0xFFFFFFFF#32, fun _ => .commit⟩,
  ⟨"NEXTSEQ", 0x10000000#32, 0xFFFFFFFF#32, fun _ => .nextseq⟩,
  ⟨"FRAME",   0x11000000#32, 0xFF000000#32, fun w => .frame (a8 w) (imm16 w)⟩,
  ⟨"SEND",    0x12000000#32, 0xFFFF0000#32, fun w => .send (imm16 w)⟩,
  ⟨"MCADDR",  0x13000000#32, 0xFFFF0000#32, fun w => .mcaddr (imm16 w)⟩,
  ⟨"PACKFL",  0x14000000#32, 0xFF000000#32, fun w => .packfl (a8 w) (imm16 w)⟩]

/-- Why a word is no command: the two cases of rule R46. The spec gives both the one status
`ERR_ILLEGAL`; telling them apart is the model's (log entry 17). -/
inductive Illegal
  /-- R46 (a): an opcode not in the table. -/
  | unusedOpcode
  /-- R46 (b): a listed opcode with a nonzero must-be-zero field. -/
  | reservedBits
deriving DecidableEq, Repr

/-- Does some row of the table have this opcode? -/
def opcodeListed (op : Byte) : Bool := opcodeTable.any fun r => opcodeOf r.pattern == op

/-- Every 32-bit word either matches a row or is illegal (R46). -/
def decode (w : Word) : Except Illegal Instr :=
  match opcodeTable.find? fun r => r.spells w with
  | some r => .ok (r.build w)
  | none => .error (if opcodeListed (opcodeOf w) then .reservedBits else .unusedOpcode)

/-! ## The host's numbering of a command's bits

A command word has no byte order (R42): it is the number itself, of 32 bits (log entry 15). -/

/-- The command word whose lowest `nbits` bits are those of `w`, the rest zero. -/
def tableWord (nbits w : Nat) : Word := BitVec.ofNat 32 (w % 2 ^ nbits)

def decodeTableWord (nbits w : Nat) : Option Instr := (decode (tableWord nbits w)).toOption

/-! ## The encoder: the five formats of R43 and the opcodes of R45 -/

/-- Format Z. -/
def formatZ (op : Byte) : Word := op ++ 0#8 ++ 0#8 ++ 0#8
/-- Format I16. -/
def formatI16 (op : Byte) (imm : Half) : Word := op ++ 0#8 ++ imm
/-- Formats I8 and O: the operand byte is `imm8`, or the mask `0PTF0000`. -/
def formatI8 (op : Byte) (imm : Byte) : Word := op ++ 0#8 ++ 0#8 ++ imm
/-- Format F. -/
def formatF (op : Byte) (a : Byte) (imm : Half) : Word := op ++ a ++ imm

def encode : Instr → Word
  | .ldcid => formatZ 0x01#8
  | .ldname len => formatI16 0x02#8 len
  | .setuniv u => formatI16 0x03#8 u
  | .setprio p => formatI8 0x04#8 p
  | .setsync sync => formatI16 0x05#8 sync
  | .setopt mask => formatI8 0x06#8 mask
  | .commit => formatZ 0x07#8
  | .nextseq => formatZ 0x10#8
  | .frame seq n => formatF 0x11#8 seq n
  | .send n => formatI16 0x12#8 n
  | .mcaddr u => formatI16 0x13#8 u
  | .packfl flags len => formatF 0x14#8 flags len

end Sys2Proof
end

