-- ==== Sys2Proof/Machine/State.lean ====
section
/-! DEFINITION. The state of the block (10_state.md R10 to R28) as plain data, the ways a step can stop,
and the state after reset (R27). -/

namespace Sys2Proof.Machine

/-- `PHASE` (10_state.md R21). -/
inductive Phase
  /-- Sender construction: the configuration commands are accepted. -/
  | config
  /-- Packets may flow: the packet commands are accepted. -/
  | ready
deriving DecidableEq, Repr

/-- `STATUS` (60_exceptions.md R100). Codes 6 and 7 are never produced, so the type has six values
(93_implementation_defined.md U10). -/
inductive Status
  | ok
  | errIllegal
  | errPhase
  | errUnconf
  | errLen
  | errNamelen
deriving DecidableEq, Repr

/-- `OPT` (10_state.md R15): three independent flags, and no other bits. -/
structure Opt where
  /-- `OPT.P`, Preview_Data. -/
  p : Bool
  /-- `OPT.T`, Stream_Terminated. -/
  t : Bool
  /-- `OPT.F`, Force_Synchronization. -/
  f : Bool
deriving DecidableEq, Repr

/-- A byte memory: (address, byte) pairs, addresses strictly rising. An unlisted address holds no
value the spec states: it reads as `none` (`Memory.read`), never as a byte of the model's choice
(log entries 5 and 6). -/
abbrev Memory := List Host.Cell

/-- One entry of `TXLOG` (10_state.md R28): what one `SEND` handed to the transport. -/
structure Datagram where
  /-- IPv4 address as a u32, first octet most significant (46_sender.md R96). -/
  dest : Word
  /-- The packet. -/
  bytes : List Byte
deriving DecidableEq, Repr

/-- The registers and fields the host can read by name (20_memory.md R35; 10_state.md R10, R20 to R23). -/
inductive RegName
  | cid | name | namelen | prio | sync | opt | univ | seq | result
  | cidset | nameset | univset | phase | status | txvalid | txlen
deriving DecidableEq, Repr

/-- A value of the spec is an unsigned integer of a stated width or a sequence of bytes
(00_scope.md R7). -/
inductive RegValue
  | uint (width value : Nat)
  | bytes (bs : List Byte)
deriving DecidableEq, Repr

/-- What the host can do (20_memory.md R35; 70_reset_and_hazards.md R114, R116), one action at a time,
between commands (R33). -/
inductive HostAction
  /-- `RESET` (R114). -/
  | reset
  /-- `HostWriteIN(a, b)`: `IN[a] <- b`. -/
  | writeIN (a : Nat) (b : Byte)
  /-- `HostReadTX(a)`. -/
  | readTX (a : Nat)
  /-- `HostReadReg(name)`. -/
  | readReg (r : RegName)
  /-- Issue the command word `w` (30_encoding.md R42). -/
  | command (w : Word)
deriving DecidableEq, Repr

/-- What the block answers to a host action. -/
inductive Reply
  /-- A command ends with exactly one status, returned to the host (R100). -/
  | status (st : Status)
  /-- `HostReadTX` returns one byte. -/
  | byte (b : Byte)
  /-- `HostReadReg` returns the register or field. -/
  | reg (v : RegValue)
deriving DecidableEq, Repr

/-- Why a step stops the machine. No command raises any of these: every command completes
(20_memory.md R39). -/
inductive Fault
  /-- Raised by the host action `HostWriteIN(a, b)` with a at or above `IN_SIZE` (a > 511 as decided),
  which the spec says is no action the host has (20_memory.md R36; 93_implementation_defined.md U13). Safe: the model stops. -/
  | noSuchInAddress (a : Nat)
  /-- Raised by the host action `HostReadTX(a)` with a > 637 (R36, U13). Safe: the model stops. -/
  | noSuchTxAddress (a : Nat)
deriving DecidableEq, Repr

/-- Why the model gives an instruction no meaning. -/
inductive Refusal
  /-- An arm of `exec` without a meaning. No arm uses it. Safe: the model stops. -/
  | notModelled (mnemonic : String)
deriving DecidableEq, Repr

/-- The block, and the host's side of its interface. -/
structure State where
  /-- `CID` (R11). -/
  cid : Vector Byte 16
  /-- `NAME` (R12). -/
  name : Vector Byte 64
  /-- `NAMELEN` (R12). -/
  nameLen : BitVec 6
  /-- `PRIO` (R13). -/
  prio : Byte
  /-- `SYNC` (R14). -/
  sync : Half
  /-- `OPT` (R15). -/
  opt : Opt
  /-- `UNIV` (R16). -/
  univ : Half
  /-- `SEQ` (R17). -/
  seq : Byte
  /-- `RESULT` (R18). -/
  result : Word
  /-- `CIDSET` (R20). -/
  cidSet : Bool
  /-- `NAMESET` (R20). -/
  nameSet : Bool
  /-- `UNIVSET` (R20). -/
  univSet : Bool
  /-- `PHASE` (R21). -/
  phase : Phase
  /-- `STATUS` (R22). -/
  status : Status
  /-- `TXVALID` (R23). -/
  txValid : Bool
  /-- `TXLEN` (R23). -/
  txLen : BitVec 10
  /-- `IN` (R24): the bytes the host has written since reset. -/
  inMem : Memory
  /-- `TX` (R25): the bytes of the packet last assembled. -/
  tx : Memory
  /-- `TXLOG` (R28), oldest first. -/
  txLog : List Datagram
  /-- The model's own: the host's actions still to come, oldest first (log entry 1). -/
  inbox : List HostAction
  /-- The model's own: what the host has been answered, oldest first (log entry 2). -/
  replies : List Reply
  /-- The model's own: which sender instance this is, the number of `RESET` actions taken (46_sender.md
  R87; log entry 10). It only picks free values. -/
  life : Nat
  /-- The parameters of this machine (00_scope.md R6). No state of the spec's: they stand here so that
  every command and every step has them as an argument, and no step changes them (log entry 19). -/
  params : Config.Params
deriving DecidableEq, Repr

/-- The machine right after reset (10_state.md R27). `CID`, `NAME` and `UNIV` are unspecified there;
the zeros here are DESIGN CHOICE, unsafe (log entry 3): no command can read them before they are
loaded (R20), and a host read of them answers a free value (`hostReadReg`). -/
def State.reset : State where
  cid := Vector.replicate 16 0#8
  name := Vector.replicate 64 0#8
  nameLen := 0#6
  prio := Config.prioDefault
  sync := 0#16
  opt := ⟨false, false, false⟩
  univ := 0#16
  seq := 0#8
  result := 0#32
  cidSet := false
  nameSet := false
  univSet := false
  phase := .config
  status := .ok
  txValid := false
  txLen := 0#10
  inMem := []
  tx := []
  txLog := []
  inbox := []
  replies := []
  life := 0
  params := Config.decided

end Sys2Proof.Machine
end

