-- ==== Sys2Proof/Machine/Ops.lean ====
section
/-! DEFINITION. The named operations over memory and registers, and how a command ends: with success,
or with an error status (`raise`). -/

namespace Sys2Proof.Machine

/-! ## Byte memories -/

/-- The byte listed at `a`; `none` where nothing is listed. -/
def Memory.read : Memory → Nat → Option Byte
  | [], _ => none
  | (k, v) :: rest, a => if k = a then some v else Memory.read rest a

/-- The memory with `b` at `a`, addresses still strictly rising. -/
def Memory.write : Memory → Nat → Byte → Memory
  | [], a, b => [(a, b)]
  | (k, v) :: rest, a, b =>
    if a < k then (a, b) :: (k, v) :: rest
    else if a = k then (a, b) :: rest
    else (k, v) :: Memory.write rest a b

/-- The bytes `s` at `a`, `a + 1`, ... in order. -/
def Memory.writeBytes : Memory → Nat → List Byte → Memory
  | m, _, [] => m
  | m, a, b :: s => Memory.writeBytes (m.write a b) (a + 1) s

/-- A zero-initialised buffer of exactly `n` bytes (45_assembler.md R82). -/
def Memory.zeroFilled (n : Nat) : Memory := (List.range n).map fun a => (a, 0x00#8)

/-- The canonical form: addresses strictly rising. (No byte equals `none`, what an unlisted address
reads as, so no listed entry can repeat it.) -/
abbrev Memory.wf (m : Memory) : Prop := m.Pairwise fun c d => c.1 < d.1

/-! ## Register writes: `REG <- v` (00_scope.md R8) -/

def setStatus (st : Status) (s : State) : State := { s with status := st }
/-- `CID <- v`, `CIDSET <- 1` (46_sender.md R88). -/
def setCid (v : Vector Byte 16) (s : State) : State := { s with cid := v, cidSet := true }
/-- `NAME <- v`, `NAMELEN <- k`, `NAMESET <- 1` (41_utf8_truncation.md R67). -/
def setName (v : Vector Byte 64) (k : BitVec 6) (s : State) : State :=
  { s with name := v, nameLen := k, nameSet := true }
/-- `UNIV <- u`, `UNIVSET <- 1` (46_sender.md R89). -/
def setUniv (u : Half) (s : State) : State := { s with univ := u, univSet := true }
def setPrio (p : Byte) (s : State) : State := { s with prio := p }
def setSync (u : Half) (s : State) : State := { s with sync := u }
def setOpt (o : Opt) (s : State) : State := { s with opt := o }
def setPhase (p : Phase) (s : State) : State := { s with phase := p }
def setSeq (q : Byte) (s : State) : State := { s with seq := q }
def setResult (v : Word) (s : State) : State := { s with result := v }
/-- `TXVALID` and `TXLEN` (10_state.md R23). -/
def setTxInfo (valid : Bool) (len : BitVec 10) (s : State) : State :=
  { s with txValid := valid, txLen := len }
/-- The output memory. -/
def setTx (m : Memory) (s : State) : State := { s with tx := m }
/-- The input memory. -/
def setIn (m : Memory) (s : State) : State := { s with inMem := m }
/-- `TXLOG <- TXLOG ++ [d]` (10_state.md R28). -/
def logDatagram (d : Datagram) (s : State) : State := { s with txLog := s.txLog ++ [d] }
/-- The host's actions still to come. -/
def setInbox (acts : List HostAction) (s : State) : State := { s with inbox := acts }
/-- Answer the host. -/
def reply (r : Reply) (s : State) : State := { s with replies := s.replies ++ [r] }

/-! ## Big-endian bytes -/

/-- `BE(v, n)[i] = v[8(n−i)−1 : 8(n−1−i)]` (40_primitives.md R54), for `v` of `w = 8n` bits. -/
def be (n : Nat) {w : Nat} (v : BitVec w) : List Byte :=
  (List.range n).map fun i => v.extractLsb' (8 * (n - 1 - i)) 8

/-! ## The only ways the block changes `TX` (40_primitives.md R57) -/

/-- `MemWriteBytes(addr, bs)`. -/
def memWriteBytes (addr : Nat) (bs : List Byte) (s : State) : State :=
  setTx (s.tx.writeBytes addr bs) s

/-- `MemWrite(addr, n, v)`. -/
def memWrite (addr n : Nat) {w : Nat} (v : BitVec w) (s : State) : State :=
  memWriteBytes addr (be n v) s

/-! ## How a command ends -/

/-- `STATUS <- OK`, the last line of every command's pseudocode. -/
def succeed (s : State) : Host.Outcome State Fault Refusal := .next (setStatus .ok s)

/-- `raise E` (60_exceptions.md R109), the block's only exception entry: `STATUS <- E`, and if the word
decoded as `FRAME` or `SEND` also `TXVALID <- 0`, `TXLEN <- 0`; nothing else changes. `cmd` is `none`
for a word that is no command (R102). There is nothing to save and no return operation (R110). -/
def raise (cmd : Option Instr) (e : Status) (s : State) : Host.Outcome State Fault Refusal :=
  .next (setStatus e (if cmd.any Instr.framesPacket then setTxInfo false 0#10 s else s))

/-- `if PHASE != p: raise ERR_PHASE` before the rest of the command (10_state.md R21;
60_exceptions.md R103). -/
def requirePhase (p : Phase) (cmd : Instr) (s : State)
    (rest : Host.Outcome State Fault Refusal) : Host.Outcome State Fault Refusal :=
  if s.phase = p then rest else raise (some cmd) .errPhase s

/-! ## The sequence counter and the multicast address -/

/-- `NEXTSEQ_FN()`: `SEQ <- (SEQ + 1) mod 256`; the new value and the new state (46_sender.md R94). -/
def nextSeqFn (s : State) : Byte × State := (s.seq + 1#8, setSeq (s.seq + 1#8) s)

/-- `MCAST(u) = 0xEFFF0000 | zext_32(u)` (46_sender.md R96). -/
def mcast (u : Half) : Word := Config.mcastBase ||| u.setWidth 32

end Sys2Proof.Machine
end

