-- ==== Sys2Proof/Machine/Flags.lean ====
section
/-! DEFINITION. The flag computations: the flags+length field, the options byte, the set-flags, the codes
of `STATUS` and `PHASE`. The block has no arithmetic condition codes (10_state.md R20). -/

namespace Sys2Proof.Machine

/-- `PACKFL(length, flags)` (40_primitives.md R55):
`((zext_16(flags) << 12) & 0xF000) | (length & 0x0FFF)`; when flags is not given it is 0x07. -/
def packfl (length : Half) (flags : Byte := Config.flags) : Half :=
  ((flags.setWidth 16 <<< 12) &&& 0xF000#16) ||| (length &&& 0x0FFF#16)

/-- `OPTBYTE(OPT) = (OPT.P << 6) | (OPT.T << 5) | (OPT.F << 4)` (43_framing_layer.md R75). -/
def optByte (o : Opt) : Byte :=
  (BitVec.ofBool o.p).setWidth 8 <<< 6 ||| (BitVec.ofBool o.t).setWidth 8 <<< 5
    ||| (BitVec.ofBool o.f).setWidth 8 <<< 4

/-- Are the three registers without a reset value loaded? (10_state.md R20; read only by `COMMIT`.) -/
def configured (s : State) : Bool := s.cidSet && s.nameSet && s.univSet

/-- The 3-bit code of a status (60_exceptions.md R100). -/
def Status.code : Status → BitVec 3
  | .ok => 0#3
  | .errIllegal => 1#3
  | .errPhase => 2#3
  | .errUnconf => 3#3
  | .errLen => 4#3
  | .errNamelen => 5#3

/-- The bit of a phase (10_state.md R21). -/
def Phase.bit : Phase → BitVec 1
  | .config => 0#1
  | .ready => 1#1

end Sys2Proof.Machine
end

