-- ==== Sys2Proof/Machine/Operands.lean ====
section
/-! DEFINITION. The operand forms. Immediates come from the decoder (30_encoding.md R44); the operands
too large for the word are read from the input memory, always from `IN[0]` (R42; 20_memory.md R35). -/

namespace Sys2Proof.Machine

/-- `IN[a]`. A byte the host has not written since reset has an unspecified value, the free value
`Config.powerOnIn` (40_primitives.md R58; 93_implementation_defined.md U7; log entry 5). -/
def inByte (s : State) (a : Nat) : Byte := (s.inMem.read a).getD (Config.powerOnIn s.life a)

/-- `MemRead(addr, n)`, the only way the block reads `IN` (40_primitives.md R58). -/
def memRead (s : State) (addr n : Nat) : List Byte :=
  (List.range n).map fun i => inByte s (addr + i)

/-- The first `n` bytes of `bs`, as a register of `n` bytes; zero-padded when `bs` is shorter. -/
def toBytes (n : Nat) (bs : List Byte) : Vector Byte n :=
  ⟨((bs ++ zeros n).take n).toArray, by simp⟩

/-- The operand of `LDCID`: `IN[0..15]` (46_sender.md R88). -/
def cidOperand (s : State) : Vector Byte 16 := toBytes 16 (memRead s 0 Config.cidSize)

/-- The operand of `FRAME` and `SEND`: the channel data `IN[0..n−1]` (45_assembler.md R85). -/
def channelData (s : State) (n : Half) : List Byte := memRead s 0 n.toNat

/-- The operand of `SETOPT`: `OPT.P <- W[6]`, `OPT.T <- W[5]`, `OPT.F <- W[4]` (46_sender.md R92). -/
def optOperand (mask : Byte) : Opt := ⟨mask.getLsbD 6, mask.getLsbD 5, mask.getLsbD 4⟩

end Sys2Proof.Machine
end

