-- ==== Sys2Proof/Machine/Configure.lean ====
section
/-! DEFINITION. The configuration commands (46_sender.md R88 to R93; `LDNAME` is in Machine/Name.lean):
accepted in phase CONFIG only (10_state.md R21). -/

namespace Sys2Proof.Machine

/-- `LDCID` (R88). -/
def execLdcid (s : State) : Host.Outcome State Fault Refusal :=
  requirePhase .config .ldcid s <| succeed (setCid (cidOperand s) s)

/-- `SETUNIV u` (R89): no range error, whatever `u` (43_framing_layer.md R76). -/
def execSetuniv (u : Half) (s : State) : Host.Outcome State Fault Refusal :=
  requirePhase .config (.setuniv u) s <| succeed (setUniv u s)

/-- `SETPRIO p` (R90): no range error, whatever `p` (43_framing_layer.md R76). -/
def execSetprio (p : Byte) (s : State) : Host.Outcome State Fault Refusal :=
  requirePhase .config (.setprio p) s <| succeed (setPrio p s)

/-- `SETSYNC s` (R91). -/
def execSetsync (sync : Half) (s : State) : Host.Outcome State Fault Refusal :=
  requirePhase .config (.setsync sync) s <| succeed (setSync sync s)

/-- `SETOPT mask` (R92): assigns all three flags at once. -/
def execSetopt (mask : Byte) (s : State) : Host.Outcome State Fault Refusal :=
  requirePhase .config (.setopt mask) s <| succeed (setOpt (optOperand mask) s)

/-- `COMMIT` (R93). -/
def execCommit (s : State) : Host.Outcome State Fault Refusal :=
  requirePhase .config .commit s <|
    if configured s then succeed (setPhase .ready s) else raise (some .commit) .errUnconf s

end Sys2Proof.Machine
end

