-- ==== Sys2Proof/Machine/Name.lean ====
section
/-! DEFINITION. UTF-8-safe truncation of the source name (41_utf8_truncation.md): the functions `TRUNC63`
and `NAMEFIELD`, and the command `LDNAME`. -/

namespace Sys2Proof.Machine

/-- A continuation byte: `b & 0xC0 = 0x80` (R61). -/
def isContinuation (b : Byte) : Bool := b &&& 0xC0#8 == 0x80#8

/-- `while k > 0 and (s[k] & 0xC0) == 0x80: k = k − 1`, from `k` (R62). -/
def scanBack (s : List Byte) : Nat → Nat
  | 0 => 0
  | k + 1 => if isContinuation (s.getD (k + 1) 0x00#8) then scanBack s k else k + 1

/-- `TRUNC63(s)` (R62): a name of at most 63 bytes whole; a longer one cut at the largest k ≤ 63 whose
byte `s[k]` is not a continuation byte, or at 0. -/
def trunc63 (s : List Byte) : List Byte :=
  if s.length ≤ Config.nameMax then s else s.take (scanBack s Config.nameMax)

/-- `NAMEFIELD(s)` (R66): the 64-byte field and the name's length. -/
def nameField (s : List Byte) : List Byte × Nat :=
  (trunc63 s ++ zeros (Config.nameField - (trunc63 s).length), (trunc63 s).length)

/-- How many bytes of the name `LDNAME len` keeps, from the bytes `w = MemRead(0, min(len, 64))`
(R67). -/
def keptLength (len : Half) (w : List Byte) : Nat :=
  if len.toNat ≤ Config.nameMax then len.toNat else scanBack w Config.nameMax

/-- `LDNAME len` (R67): reads at most `IN[0..63]`, the only bytes `TRUNC63` can depend on (R64). -/
def execLdname (len : Half) (s : State) : Host.Outcome State Fault Refusal :=
  requirePhase .config (.ldname len) s <|
    if s.params.inSize < len.toNat then raise (some (.ldname len)) .errNamelen s
    else
      let w := memRead s 0 (min len.toNat Config.nameField)
      let k := keptLength len w
      succeed (setName (toBytes 64 (w.take k ++ zeros (Config.nameField - k))) (BitVec.ofNat 6 k) s)

end Sys2Proof.Machine
end

