-- ==== Sys2Proof/Machine/Layers.lean ====
section
/-! DEFINITION. The three layer encoders and the packet assembler (42_root_layer.md, 43_framing_layer.md,
44_dmp_layer.md, 45_assembler.md): the internal operations `FRAME` and `SEND` are built from. -/

namespace Sys2Proof.Machine

/-- total = 38 + 77 + (11 + n), a u16 (45_assembler.md R81). -/
def totalLength (n : Nat) : Half :=
  BitVec.ofNat 16 (Config.rootSize + Config.framingSize + (Config.dmpFixedSize + n))

/-- `WRROOT(total)` (42_root_layer.md R70): writes `TX[0..37]`. -/
def wrRoot (total : Half) (s : State) : State :=
  s |> memWrite 0 2 Config.preambleSize
    |> memWrite 2 2 Config.postambleSize
    |> memWriteBytes 4 Config.acnPid
    |> memWrite 18 4 Config.rootVector
    |> memWriteBytes 22 s.cid.toList
    |> memWrite 16 2 (packfl (total - Config.rootLenAdj) Config.flags)

/-- `WRFRAME(total, seq)` (43_framing_layer.md R73): writes `TX[38..114]`. `PRIO`, `SYNC` and `UNIV` are
copied whatever their value (R76). -/
def wrFrame (total : Half) (seq : Byte) (s : State) : State :=
  s |> memWrite 38 2 (packfl (total - s.params.frameLenAdj.value) Config.flags)
    |> memWrite 40 4 Config.framingVector
    |> memWriteBytes 44 s.name.toList
    |> memWrite 108 1 s.prio
    |> memWrite 109 2 s.sync
    |> memWrite 111 1 seq
    |> memWrite 112 1 (optByte s.opt)
    |> memWrite 113 2 s.univ

/-- `WRDMP(total, dmx)` (44_dmp_layer.md R78): writes `TX[115..125+n]`. -/
def wrDmp (total : Half) (dmx : List Byte) (s : State) : State :=
  s |> memWrite 115 2 (packfl (total - Config.dmpLenAdj) Config.flags)
    |> memWrite 117 1 Config.dmpVector
    |> memWrite 118 1 Config.dmpAddrType
    |> memWrite 119 2 Config.dmpFirstAddr
    |> memWrite 121 2 Config.dmpAddrInc
    |> memWrite 123 2 (BitVec.ofNat 16 (1 + dmx.length))
    |> memWrite 125 1 Config.startCode
    |> memWriteBytes Config.headerSize dmx

/-- `ASSEMBLE(dmx, seq)` (45_assembler.md R82): a zero-initialised buffer of exactly the total length,
then the three layers in order. Bytes of `TX` at or beyond the total are not part of the buffer: they
are unspecified from then on (20_memory.md R41), so nothing is listed there (log entry 6). -/
def assemble (dmx : List Byte) (seq : Byte) (s : State) : State :=
  let total := totalLength dmx.length
  s |> setTx (Memory.zeroFilled total.toNat)
    |> wrRoot total
    |> wrFrame total seq
    |> wrDmp total dmx
    |> setTxInfo true (total.setWidth 10)

/-- `TX[0 .. TXLEN−1]`: the packet. -/
def txBytes (s : State) : List Byte := (List.range s.txLen.toNat).filterMap s.tx.read

end Sys2Proof.Machine
end

