-- ==== Sys2Proof/Machine/Packet.lean ====
section
/-! DEFINITION. The packet commands (46_sender.md R94, R95; 45_assembler.md R85): accepted in phase READY
only (10_state.md R21). The length check stands before any read, any write and the sequence counter
(44_dmp_layer.md R79). -/

namespace Sys2Proof.Machine

/-- `NEXTSEQ` (R94). -/
def execNextseq (s : State) : Host.Outcome State Fault Refusal :=
  requirePhase .ready .nextseq s <|
    succeed (setResult ((nextSeqFn s).1.setWidth 32) (nextSeqFn s).2)

/-- `FRAME seq, n` (R85). -/
def execFrame (seq : Byte) (n : Half) (s : State) : Host.Outcome State Fault Refusal :=
  requirePhase .ready (.frame seq n) s <|
    if Config.dmxMax < n.toNat then raise (some (.frame seq n)) .errLen s
    else succeed (assemble (channelData s n) seq s)

/-- Hand the packet to the transport (46_sender.md R98): one datagram, to the multicast address of
`UNIV`. -/
def handOver (s : State) : State := logDatagram ⟨mcast s.univ, txBytes s⟩ s

/-- `SEND n` (R95). -/
def execSend (n : Half) (s : State) : Host.Outcome State Fault Refusal :=
  requirePhase .ready (.send n) s <|
    if Config.dmxMax < n.toNat then raise (some (.send n)) .errLen s
    else
      let q := nextSeqFn s
      succeed (handOver (assemble (channelData q.2 n) q.1 q.2))

end Sys2Proof.Machine
end

