-- ==== Sys2Proof/Machine/Pure.lean ====
section
/-! DEFINITION. The commands that compute a number and no packet, accepted in both phases
(46_sender.md R97; 40_primitives.md R60). -/

namespace Sys2Proof.Machine

/-- `MCADDR u` (R97): `RESULT <- MCAST(u)`; `UNIV` is neither read nor written. -/
def execMcaddr (u : Half) (s : State) : Host.Outcome State Fault Refusal :=
  succeed (setResult (mcast u) s)

/-- `PACKFL flags, len` (R60): `RESULT <- zext_32(PACKFL(len, flags))`. -/
def execPackfl (flags : Byte) (len : Half) (s : State) : Host.Outcome State Fault Refusal :=
  succeed (setResult ((packfl len flags).setWidth 32) s)

end Sys2Proof.Machine
end

