-- ==== Sys2Proof/Machine/Dispatch.lean ====
section
/-! DEFINITION. One arm per command: which meaning each one has. -/

namespace Sys2Proof.Machine

def exec (i : Instr) (s : State) : Host.Outcome State Fault Refusal :=
  match i with
  | .ldcid => Sys2Proof.Machine.execLdcid s
  | .ldname len => Sys2Proof.Machine.execLdname len s
  | .setuniv u => Sys2Proof.Machine.execSetuniv u s
  | .setprio p => Sys2Proof.Machine.execSetprio p s
  | .setsync sync => Sys2Proof.Machine.execSetsync sync s
  | .setopt mask => Sys2Proof.Machine.execSetopt mask s
  | .commit => Sys2Proof.Machine.execCommit s
  | .nextseq => Sys2Proof.Machine.execNextseq s
  | .frame seq n => Sys2Proof.Machine.execFrame seq n s
  | .send n => Sys2Proof.Machine.execSend n s
  | .mcaddr u => Sys2Proof.Machine.execMcaddr u s
  | .packfl flags len => Sys2Proof.Machine.execPackfl flags len s

end Sys2Proof.Machine
end

