-- ==== Sys2Proof/Machine/HostPort.lean ====
section
/-! DEFINITION. What each host action does (20_memory.md R35; 70_reset_and_hazards.md R114, R116). -/

namespace Sys2Proof.Machine

/-! ## Reads: they change nothing of the block (20_memory.md R34) -/

/-- `HostReadTX(a)`, as the host's answer number `k`. A byte of the packet is what the block wrote; any
other byte of `TX`, all of it while `TXVALID = 0`, is unspecified (20_memory.md R41), the free value
`Config.unspecifiedTx` (log entry 6). -/
def hostReadTX (k : Nat) (s : State) (a : Nat) : Byte :=
  if s.txValid ∧ a < s.txLen.toNat then (s.tx.read a).getD (Config.unspecifiedTx k a)
  else Config.unspecifiedTx k a

/-- What a host read of `CID` answers: before `LDCID` any value (93_implementation_defined.md U6;
log entry 4). -/
def shownCid (s : State) : List Byte :=
  if s.cidSet then s.cid.toList else (List.range 16).map (Config.powerOnCid s.life)

/-- What a host read of `NAME` answers: before `LDNAME` any value (U6; log entry 4). -/
def shownName (s : State) : List Byte :=
  if s.nameSet then s.name.toList else (List.range 64).map (Config.powerOnName s.life)

/-- What a host read of `UNIV` answers: before `SETUNIV` any value (U6; log entry 4). -/
def shownUniv (s : State) : Half := if s.univSet then s.univ else Config.powerOnUniv s.life

/-- `OPT` as the three bits `{P, T, F}` (10_state.md R10). -/
def optBits (o : Opt) : BitVec 3 := BitVec.ofBool o.p ++ BitVec.ofBool o.t ++ BitVec.ofBool o.f

/-- An unsigned integer of a stated width, as the host sees it (00_scope.md R7; log entry 16). -/
def shownUint {w : Nat} (v : BitVec w) : RegValue := .uint w v.toNat

/-- `HostReadReg(name)` (20_memory.md R35). -/
def hostReadReg (s : State) : RegName → RegValue
  | .cid => .bytes (shownCid s)
  | .name => .bytes (shownName s)
  | .namelen => shownUint s.nameLen
  | .prio => shownUint s.prio
  | .sync => shownUint s.sync
  | .opt => shownUint (optBits s.opt)
  | .univ => shownUint (shownUniv s)
  | .seq => shownUint s.seq
  | .result => shownUint s.result
  | .cidset => shownUint (BitVec.ofBool s.cidSet)
  | .nameset => shownUint (BitVec.ofBool s.nameSet)
  | .univset => shownUint (BitVec.ofBool s.univSet)
  | .phase => shownUint s.phase.bit
  | .status => shownUint s.status.code
  | .txvalid => shownUint (BitVec.ofBool s.txValid)
  | .txlen => shownUint s.txLen

/-! ## Issuing a command -/

/-- A command's status is also its response to the host (10_state.md R22; 60_exceptions.md R100). -/
def answerStatus : Host.Outcome State Fault Refusal → Host.Outcome State Fault Refusal
  | .next s => .next (reply (.status s.status) s)
  | .fault f => .fault f
  | .refused r => .refused r

/-- Decode comes first: a word that is no command ends `ERR_ILLEGAL` (60_exceptions.md R102). -/
def runWord (w : Word) (s : State) : Host.Outcome State Fault Refusal :=
  match decode w with
  | .ok i => exec i s
  | .error _ => raise none .errIllegal s

/-! ## The host actions -/

/-- `RESET` (70_reset_and_hazards.md R114): every piece of the block's state to its reset value, a new
sender instance. What the host still means to do and what it has been told are the host's (log
entry 10), and the parameters of the machine are not state (log entry 19). -/
def resetBlock (s : State) : State :=
  { State.reset with inbox := s.inbox, replies := s.replies, life := s.life + 1,
                     params := s.params }

/-- One host action on a state from whose `inbox` it has been taken. -/
def takeAction (act : HostAction) (s : State) : Host.Outcome State Fault Refusal :=
  match act with
  | .reset => .next (resetBlock s)
  | .writeIN a b =>
    if a < s.params.inSize then .next (setIn (s.inMem.write a b) s) else .fault (.noSuchInAddress a)
  | .readTX a =>
    if a < Config.packetMax then .next (reply (.byte (hostReadTX s.replies.length s a)) s)
    else .fault (.noSuchTxAddress a)
  | .readReg r => .next (reply (.reg (hostReadReg s r)) s)
  | .command w => answerStatus (runWord w s)

/-- The oldest host action still to come is taken; with none to come the block is idle and stays as it
is (70_reset_and_hazards.md R118; log entry 1). -/
def hostStep (s : State) : Host.Outcome State Fault Refusal :=
  match s.inbox with
  | [] => .next s
  | act :: later => takeAction act (setInbox later s)

end Sys2Proof.Machine
end

