-- ==== Sys2Proof/Machine/Step.lean ====
section
/-! DEFINITION. One step of the machine: one host action, atomically (20_memory.md R33, R37). -/

namespace Sys2Proof.Machine

def step (s : State) : Host.Outcome State Fault Refusal := hostStep s

/-- `s` with the command whose bits are `w` as the host's next action (log entries 1 and 15). -/
def State.withFetchWord (s : State) (nbits w : Nat) : State :=
  setInbox (.command (tableWord nbits w) :: s.inbox) s

end Sys2Proof.Machine
end

