-- ==== Sys2Proof/Safety.lean ====
section
/-! DEFINITION. What counts as a safe run of the block, in the terms the statements use: well-formed UTF-8
(41_utf8_truncation.md R61), the packet as one expression (45_assembler.md R82), and the invariants the
spec gives the state. -/

namespace Sys2Proof.Safety

open Sys2Proof.Machine

/-! ## UTF-8 (41_utf8_truncation.md R61) -/

/-- `lo..hi`, ranges inclusive. -/
def within (lo hi b : Byte) : Bool := decide (lo.toNat ≤ b.toNat) && decide (b.toNat ≤ hi.toNat)

/-- A byte 80..BF. -/
def tail (b : Byte) : Bool := within 0x80#8 0xBF#8 b

/-- Is the byte sequence one of the nine shapes of a code-point encoding? -/
def isEncoding : List Byte → Bool
  | [a] => within 0x00#8 0x7F#8 a
  | [a, b] => within 0xC2#8 0xDF#8 a && tail b
  | [a, b, c] =>
    (a == 0xE0#8 && within 0xA0#8 0xBF#8 b && tail c)
      || (within 0xE1#8 0xEC#8 a && tail b && tail c)
      || (a == 0xED#8 && within 0x80#8 0x9F#8 b && tail c)
      || (within 0xEE#8 0xEF#8 a && tail b && tail c)
  | [a, b, c, d] =>
    (a == 0xF0#8 && within 0x90#8 0xBF#8 b && tail c && tail d)
      || (within 0xF1#8 0xF3#8 a && tail b && tail c && tail d)
      || (a == 0xF4#8 && within 0x80#8 0x8F#8 b && tail c && tail d)
  | _ => false

/-- Well-formed UTF-8: a concatenation of zero or more code-point encodings. -/
def WellFormedUtf8 (s : List Byte) : Prop :=
  ∃ es : List (List Byte), (∀ e ∈ es, isEncoding e = true) ∧ s = es.flatten

/-- `k` is a code-point boundary of `s`: 0, the length, or the index of a non-continuation byte. -/
def Boundary (s : List Byte) (k : Nat) : Prop :=
  k = 0 ∨ k = s.length ∨ ∃ b, s[k]? = some b ∧ isContinuation b = false

/-! ## The packet -/

/-- The big-endian value of a byte sequence, the sum of `s[i] · 256^(n−1−i)` (40_primitives.md R54). -/
def bigEndianValue : List Byte → Nat
  | [] => 0
  | b :: s => b.toNat * 256 ^ s.length + bigEndianValue s

/-- A flags+length field on the wire, `BE(PACKFL(length, 0x07), 2)`. -/
def flagsAndLength (length : Nat) : List Byte := be 2 (packfl (BitVec.ofNat 16 length) 0x07#8)

/-- The root layer of a packet of `total` bytes (42_root_layer.md R68). -/
def rootLayer (s : State) (total : Nat) : List Byte :=
  be 2 0x0010#16 ++ be 2 0x0000#16 ++ Config.acnPid ++ flagsAndLength (total - 15)
    ++ be 4 Config.rootVector ++ s.cid.toList

/-- The framing layer (43_framing_layer.md R72). -/
def framingLayer (s : State) (total : Nat) (seq : Byte) : List Byte :=
  flagsAndLength (total - s.params.frameLenAdj.value.toNat) ++ be 4 Config.framingVector ++ s.name.toList
    ++ [s.prio] ++ be 2 s.sync ++ [seq] ++ [optByte s.opt] ++ be 2 s.univ

/-- The DMP layer (44_dmp_layer.md R77). -/
def dmpLayer (total : Nat) (dmx : List Byte) : List Byte :=
  flagsAndLength (total - 114) ++ [0x02#8] ++ [0xA1#8] ++ be 2 0x0000#16 ++ be 2 0x0001#16
    ++ be 2 (BitVec.ofNat 16 (1 + dmx.length)) ++ [0x00#8] ++ dmx

/-- The packet as one expression (45_assembler.md R82), total = 126 + n. -/
def packet (s : State) (dmx : List Byte) (seq : Byte) : List Byte :=
  rootLayer s (126 + dmx.length) ++ framingLayer s (126 + dmx.length) seq
    ++ dmpLayer (126 + dmx.length) dmx

/-- The 16-bit big-endian field of `m` at `a`. -/
def field16 (m : Memory) (a : Nat) : Option Half := do
  let hi ← m.read a
  let lo ← m.read (a + 1)
  return hi ++ lo

/-- The run of `n` bytes of `TX` from offset `a` on, each as far as it is listed. -/
def txRun (s : State) (a n : Nat) : List (Option Byte) := (List.range n).map fun i => s.tx.read (a + i)

/-! ## Illegal command words (30_encoding.md R46) -/

/-- R46 (a): an opcode not in the table, namely 0x00, 0x08 to 0x0F and 0x15 to 0xFF. -/
def UnusedOpcode (w : Word) : Prop :=
  let op := (w.extractLsb' 24 8).toNat
  op = 0x00 ∨ (0x08 ≤ op ∧ op ≤ 0x0F) ∨ 0x15 ≤ op

/-- R46 (b): a listed opcode with a nonzero must-be-zero field. -/
def NonzeroReserved (w : Word) : Prop :=
  let op := (w.extractLsb' 24 8).toNat
  ((op = 0x01 ∨ op = 0x07 ∨ op = 0x10) ∧ w.extractLsb' 0 24 ≠ 0#24) ∨
  ((op = 0x02 ∨ op = 0x03 ∨ op = 0x05 ∨ op = 0x12 ∨ op = 0x13) ∧ w.extractLsb' 16 8 ≠ 0#8) ∨
  (op = 0x04 ∧ w.extractLsb' 8 16 ≠ 0#16) ∨
  (op = 0x06 ∧ (w.extractLsb' 8 16 ≠ 0#16 ∨ w.getLsbD 7 = true ∨ w.extractLsb' 0 4 ≠ 0#4))

/-! ## Invariants -/

/-- Both memories are in canonical form and list only addresses that exist (10_state.md R24, R25). -/
def MemoryCanonical (s : State) : Prop :=
  s.inMem.wf ∧ s.tx.wf ∧ (∀ c ∈ s.inMem, c.1 < s.params.inSize) ∧ ∀ c ∈ s.tx, c.1 < Config.packetMax

/-- The invariant of `TXVALID` and `TXLEN` (10_state.md R23). -/
def TxInfoLegal (s : State) : Prop :=
  (s.txValid = true → 126 ≤ s.txLen.toNat ∧ s.txLen.toNat ≤ 638 ∧ s.phase = .ready) ∧
  (s.txValid = false → s.txLen = 0#10)

/-- The invariant of `NAME`, from the first successful `LDNAME` onward (10_state.md R12). -/
def NamePadded (s : State) : Prop :=
  s.nameSet = true → ∀ (i : Nat) (h : i < 64), s.nameLen.toNat ≤ i → s.name[i] = 0x00#8

/-- READY is reached only with the three registers without a reset value loaded (10_state.md R20, R21). -/
def ReadyIsConfigured (s : State) : Prop :=
  s.phase = .ready → s.cidSet = true ∧ s.nameSet = true ∧ s.univSet = true

/-- The output memory is one complete, internally consistent packet whenever `TXVALID = 1`
(45_assembler.md R83): it lists exactly the bytes below `TXLEN`, the three length fields are `TXLEN` less
15, `FRAME_LEN_ADJ` and 114, and the property-value count is `TXLEN` less 125. -/
def TxSelfConsistent (s : State) : Prop :=
  s.txValid = true →
    (∀ a, (s.tx.read a).isSome = true ↔ a < s.txLen.toNat) ∧
    (field16 s.tx 16).map (· &&& 0x0FFF#16) = some (s.txLen.setWidth 16 - 15#16) ∧
    (field16 s.tx 38).map (· &&& 0x0FFF#16) = some (s.txLen.setWidth 16 - s.params.frameLenAdj.value) ∧
    (field16 s.tx 115).map (· &&& 0x0FFF#16) = some (s.txLen.setWidth 16 - 114#16) ∧
    field16 s.tx 123 = some (s.txLen.setWidth 16 - 125#16)

/-- Whenever `TXVALID = 1`, `TX` is the packet of the block's own configuration for some sequence number
and at most 512 channel bytes, and the block is READY (45_assembler.md R82, R83). -/
def TxHoldsPacket (s : State) : Prop :=
  s.txValid = true → s.phase = .ready ∧ ∃ dmx seq, dmx.length ≤ 512 ∧
    s.txLen.toNat = 126 + dmx.length ∧ ∀ a, s.tx.read a = (packet s dmx seq)[a]?

/-- Every datagram handed over went to the multicast address of the universe and is 126 to 638 bytes
long; none is handed over before READY (10_state.md R28). -/
def LogLegal (s : State) : Prop :=
  (s.phase = .config → s.txLog = []) ∧
  ∀ d ∈ s.txLog, d.dest = 0xEFFF0000#32 ||| s.univ.setWidth 32 ∧
    126 ≤ d.bytes.length ∧ d.bytes.length ≤ 638

/-- Entry number i (counting from 1) of the output history carries sequence number i mod 256, and `SEQ`
is that of the last one (10_state.md R28: holds if the host never issues `NEXTSEQ` on its own). -/
def LogNumbered (s : State) : Prop :=
  s.seq = BitVec.ofNat 8 s.txLog.length ∧
  ∀ (i : Nat) (h : i < s.txLog.length), s.txLog[i].bytes[111]? = some (BitVec.ofNat 8 (i + 1))

end Sys2Proof.Safety
end

