-- ==== Sys2Proof/Certificates/Slice0/Obligations.lean ====
section
/-! DEFINITION. The statements for the provers, from the numbered rules of the spec. A statement whose
next state is written as `{ s with ... }` says with that one equation also the frame: every register,
flag, memory and log not named there is unchanged. -/

open Sys2Proof Sys2Proof.Machine Sys2Proof.Safety

/-! ## Encoding (30_encoding.md) -/

/-- Every well-formed command is read back from its own encoding, with every operand at every value its
field admits (R43 to R45). -/
def Obligations.DecodeOfEncode : Prop :=
  ∀ i : Instr, i.wellFormed = true → decode (encode i) = .ok i

/-- Every word that decodes is the one encoding of a well-formed command: no bit of it is dropped. -/
def Obligations.EncodeOfDecode : Prop :=
  ∀ (w : Word) (i : Instr), decode w = .ok i → encode i = w ∧ i.wellFormed = true

/-- The rows of the opcode map do not overlap (R45), and a word decodes exactly when it spells a row. -/
def Obligations.OpcodeRowsDisjoint : Prop :=
  ∀ w : Word,
    (∀ r ∈ opcodeTable, ∀ r' ∈ opcodeTable, w &&& r.mask = r.pattern → w &&& r'.mask = r'.pattern →
      r.mnemonic = r'.mnemonic) ∧
    ((∃ i, decode w = .ok i) ↔ ∃ r ∈ opcodeTable, w &&& r.mask = r.pattern)

/-- R46, R102: exactly the words with an unused opcode or a nonzero must-be-zero bit are illegal, and
such a word changes `STATUS` and nothing else, in either phase. -/
def Obligations.IllegalWordsChangeStatusOnly : Prop :=
  (∀ w : Word, (∃ e, decode w = .error e) ↔ UnusedOpcode w ∨ NonzeroReserved w) ∧
  ∀ (w : Word) (s : State), UnusedOpcode w ∨ NonzeroReserved w →
    runWord w s = .next { s with status := .errIllegal }

/-- Words written out from the encoding tables decode to the commands they stand for. -/
def Obligations.SampleWordsDecode : Prop :=
  decode 0x01000000#32 = .ok .ldcid ∧ decode 0x02000040#32 = .ok (.ldname 64#16) ∧
  decode 0x0300F9FF#32 = .ok (.setuniv 63999#16) ∧ decode 0x040000C8#32 = .ok (.setprio 200#8) ∧
  decode 0x05001234#32 = .ok (.setsync 0x1234#16) ∧ decode 0x06000050#32 = .ok (.setopt 0x50#8) ∧
  decode 0x07000000#32 = .ok .commit ∧ decode 0x10000000#32 = .ok .nextseq ∧
  decode 0x11C80003#32 = .ok (.frame 200#8 3#16) ∧ decode 0x12000201#32 = .ok (.send 513#16) ∧
  decode 0x1300FAD6#32 = .ok (.mcaddr 64214#16) ∧
  decode 0x14FF1234#32 = .ok (.packfl 0xFF#8 0x1234#16)

/-! ## Primitives (40_primitives.md, 43_framing_layer.md, 46_sender.md) -/

/-- R54: `BE(v, n)` has n bytes, byte i is `v[8(n−i)−1 : 8(n−1−i)]`, and their big-endian value is v,
for the widths 8, 16 and 32. -/
def Obligations.BigEndianBytesOfInteger : Prop :=
  ∀ n : Nat, n = 1 ∨ n = 2 ∨ n = 4 → ∀ v : BitVec (8 * n),
    (be n v).length = n ∧
    (∀ i, i < n → (be n v)[i]? = some (v.extractLsb' (8 * (n - 1 - i)) 8)) ∧
    bigEndianValue (be n v) = v.toNat

/-- R55: `PACKFL(length, flags)` is `{ flags[3:0], length[11:0] }`; flags not given are 0x07. -/
def Obligations.PackflPutsNibbleAboveLength : Prop :=
  (∀ (length : Half) (flags : Byte),
    packfl length flags = flags.extractLsb' 0 4 ++ length.extractLsb' 0 12) ∧
  ∀ length : Half, packfl length = packfl length 0x07#8

/-- R75: `OPTBYTE` has P at bit 6, T at bit 5, F at bit 4 and 0 at every other bit. -/
def Obligations.OptionsByteHasThreeBits : Prop :=
  ∀ (o : Opt) (i : Nat), i < 8 →
    (optByte o).getLsbD i = ((i == 6 && o.p) || (i == 5 && o.t) || (i == 4 && o.f))

/-- R96: `MCAST(u) = 0xEFFF0000 | zext_32(u)`, and its four bytes are 239, 255, `u[15:8]`, `u[7:0]`. -/
def Obligations.MulticastAddressOctets : Prop :=
  ∀ u : Half, mcast u = 0xEFFF0000#32 ||| u.setWidth 32 ∧
    be 4 (mcast u) = [239#8, 255#8, u.extractLsb' 8 8, u.extractLsb' 0 8]

/-- R57: after `MemWriteBytes(addr, bs)` the bytes at `addr .. addr+len(bs)−1` of `TX` are `bs` in order,
every other byte of `TX` and every other piece of state is as before; `MemWrite(addr, n, v)` is
`MemWriteBytes(addr, BE(v, n))`. -/
def Obligations.TxWritesReadBack : Prop :=
  ∀ (s : State) (addr : Nat) (bs : List Byte),
    (∀ i, i < bs.length → (memWriteBytes addr bs s).tx.read (addr + i) = bs[i]?) ∧
    (∀ a, a < addr ∨ addr + bs.length ≤ a → (memWriteBytes addr bs s).tx.read a = s.tx.read a) ∧
    memWriteBytes addr bs s = { s with tx := (memWriteBytes addr bs s).tx } ∧
    ∀ n : Nat, n = 1 ∨ n = 2 ∨ n = 4 → ∀ v : BitVec (8 * n),
      memWrite addr n v s = memWriteBytes addr (be n v) s

/-! ## The source name (41_utf8_truncation.md) -/

/-- R62: a name of at most 63 bytes is kept whole; a longer one is cut at the largest index k ≤ 63 that
is 0 or whose byte is not a continuation byte. -/
def Obligations.TruncationCutsAtLargestIndex : Prop :=
  ∀ s : List Byte,
    (s.length ≤ 63 → trunc63 s = s) ∧
    (63 < s.length → ∃ k, k ≤ 63 ∧ trunc63 s = s.take k ∧
      (k = 0 ∨ ∃ b, s[k]? = some b ∧ isContinuation b = false) ∧
      ∀ j, k < j → j ≤ 63 → ∃ b, s[j]? = some b ∧ isContinuation b = true)

/-- R63: what `TRUNC63` guarantees, P1 to P4 for every byte sequence, P5 to P7 for every well-formed
one. -/
def Obligations.TruncationKeepsUtf8 : Prop :=
  ∀ s : List Byte,
    trunc63 s = s.take (trunc63 s).length ∧
    (trunc63 s).length ≤ 63 ∧
    (s.length ≤ 63 → trunc63 s = s) ∧
    Boundary s (trunc63 s).length ∧
    (WellFormedUtf8 s →
      WellFormedUtf8 (trunc63 s) ∧
      (∀ k, k ≤ s.length → k ≤ 63 → WellFormedUtf8 (s.take k) → k ≤ (trunc63 s).length) ∧
      (63 < s.length → 60 ≤ (trunc63 s).length))

/-- R64: the result depends only on the length and on the first min(L, 64) bytes: two sequences of one
length with the same first 64 bytes, or two longer than 63 bytes with the same first 64, are cut alike. -/
def Obligations.TruncationReadsFirst64 : Prop :=
  ∀ s s' : List Byte, (s.length = s'.length ∨ (63 < s.length ∧ 63 < s'.length)) →
    s.take 64 = s'.take 64 → trunc63 s = trunc63 s'

/-- R66: `NAMEFIELD(s)` is `TRUNC63(s)` padded with zeros to 64 bytes, and its length; the last byte is
always 0x00. -/
def Obligations.NameFieldIsPaddedTruncation : Prop :=
  ∀ s : List Byte,
    (nameField s).2 = (trunc63 s).length ∧
    (nameField s).1 = trunc63 s ++ List.replicate (64 - (trunc63 s).length) 0x00#8 ∧
    (nameField s).1.length = 64 ∧ (nameField s).1[63]? = some 0x00#8

/-! ## The configuration commands -/

/-- R88: `LDCID`. -/
def Obligations.LdcidLoadsComponentIdentifier : Prop :=
  decode 0x01000000#32 = .ok .ldcid ∧
  ∀ s : State,
    (s.phase = .config → ∃ t, exec .ldcid s = .next t ∧
      (∀ (i : Nat) (h : i < 16), t.cid[i] = inByte s i) ∧
      t = { s with cid := t.cid, cidSet := true, status := .ok }) ∧
    (s.phase = .ready → exec .ldcid s = .next { s with status := .errPhase })

/-- `LDNAME len` (41_utf8_truncation.md sections 3 and 4; 60_exceptions.md section 1) stores
`NAMEFIELD(IN[0..len−1])`, reading no byte of `IN` at or above 64, for every len up to its limit. The spec
writes that limit as 512; that it follows the parameter `IN_SIZE`, 512 as decided, is the model's
deduction, log entry 9. -/
def Obligations.LdnameStoresNameField : Prop :=
  (∀ len : Half, decode (0x02000000#32 ||| len.setWidth 32) = .ok (.ldname len)) ∧
  ∀ (len : Half) (s : State),
    (s.phase = .config → len.toNat ≤ s.params.inSize → ∃ t, exec (.ldname len) s = .next t ∧
      t.name.toList = (nameField (memRead s 0 len.toNat)).1 ∧
      t.nameLen.toNat = (nameField (memRead s 0 len.toNat)).2 ∧
      t = { s with name := t.name, nameLen := t.nameLen, nameSet := true, status := .ok } ∧
      ∀ m, (∀ a, a < 64 → m.read a = s.inMem.read a) →
        exec (.ldname len) { s with inMem := m } = .next { t with inMem := m }) ∧
    (s.phase = .config → s.params.inSize < len.toNat →
      exec (.ldname len) s = .next { s with status := .errNamelen }) ∧
    (s.phase = .ready → exec (.ldname len) s = .next { s with status := .errPhase })

/-- R89: `SETUNIV u`, for all 65536 values of u. -/
def Obligations.SetunivStoresUniverse : Prop :=
  ∀ u : Half, decode (0x03000000#32 ||| u.setWidth 32) = .ok (.setuniv u) ∧ ∀ s : State,
    (s.phase = .config →
      exec (.setuniv u) s = .next { s with univ := u, univSet := true, status := .ok }) ∧
    (s.phase = .ready → exec (.setuniv u) s = .next { s with status := .errPhase })

/-- R90: `SETPRIO p`, for all 256 values of p. -/
def Obligations.SetprioStoresPriority : Prop :=
  ∀ p : Byte, decode (0x04000000#32 ||| p.setWidth 32) = .ok (.setprio p) ∧ ∀ s : State,
    (s.phase = .config → exec (.setprio p) s = .next { s with prio := p, status := .ok }) ∧
    (s.phase = .ready → exec (.setprio p) s = .next { s with status := .errPhase })

/-- R91: `SETSYNC s`. -/
def Obligations.SetsyncStoresSyncUniverse : Prop :=
  ∀ v : Half, decode (0x05000000#32 ||| v.setWidth 32) = .ok (.setsync v) ∧ ∀ s : State,
    (s.phase = .config → exec (.setsync v) s = .next { s with sync := v, status := .ok }) ∧
    (s.phase = .ready → exec (.setsync v) s = .next { s with status := .errPhase })

/-- R92: `SETOPT mask` assigns the three flags; a mask with any of the bits 0x8F set is illegal before
the phase check. -/
def Obligations.SetoptAssignsThreeFlags : Prop :=
  (∀ p t f : Bool, ∃ mask : Byte,
    decode (0x06000000#32 ||| (BitVec.ofBool p).setWidth 32 <<< 6 ||| (BitVec.ofBool t).setWidth 32 <<< 5
      ||| (BitVec.ofBool f).setWidth 32 <<< 4) = .ok (.setopt mask) ∧
    ∀ s : State,
      (s.phase = .config → exec (.setopt mask) s = .next { s with opt := ⟨p, t, f⟩, status := .ok }) ∧
      (s.phase = .ready → exec (.setopt mask) s = .next { s with status := .errPhase })) ∧
  ∀ (mask : Byte) (s : State), mask &&& 0x8F#8 ≠ 0#8 →
    runWord (0x06000000#32 ||| mask.setWidth 32) s = .next { s with status := .errIllegal }

/-- R93: `COMMIT`. -/
def Obligations.CommitEntersReady : Prop :=
  decode 0x07000000#32 = .ok .commit ∧
  ∀ s : State,
    (s.phase = .config → s.cidSet = true → s.nameSet = true → s.univSet = true →
      exec .commit s = .next { s with phase := .ready, status := .ok }) ∧
    (s.phase = .config → s.cidSet = false ∨ s.nameSet = false ∨ s.univSet = false →
      exec .commit s = .next { s with status := .errUnconf }) ∧
    (s.phase = .ready → exec .commit s = .next { s with status := .errPhase })

/-! ## The packet commands -/

/-- R94: `NEXTSEQ`. -/
def Obligations.NextseqAdvancesCounter : Prop :=
  decode 0x10000000#32 = .ok .nextseq ∧
  ∀ s : State,
    (s.phase = .ready → ∃ t, exec .nextseq s = .next t ∧
      t.seq.toNat = (s.seq.toNat + 1) % 256 ∧ t.result.toNat = (s.seq.toNat + 1) % 256 ∧
      t = { s with seq := t.seq, result := t.result, status := .ok }) ∧
    (s.phase = .config → exec .nextseq s = .next { s with status := .errPhase })

/-- The source's testable property of `NEXTSEQ` (46_sender.md section 3): the j-th of k successive calls
returns the start value plus j, modulo 256. -/
def Obligations.NextseqCountsModulo256 : Prop :=
  ∀ (k : Nat) (s : State), s.phase = .ready → ∃ f : Nat → State, f 0 = s ∧
    ∀ j, j < k → exec .nextseq (f j) = .next (f (j + 1)) ∧
      (f (j + 1)).result.toNat = (s.seq.toNat + (j + 1)) % 256 ∧
      (f (j + 1)).seq.toNat = (s.seq.toNat + (j + 1)) % 256

/-- R85: `FRAME seq, n`. Every byte of `IN` is unchanged, and every byte of `TX` below the total length is
that of the packet. (The bytes of `TX` beyond it are unspecified from then on, 20_memory.md section 4, so
nothing is said of them.) -/
def Obligations.FrameAssemblesPacket : Prop :=
  (∀ (seq : Byte) (n : Half),
    decode (0x11000000#32 ||| seq.setWidth 32 <<< 16 ||| n.setWidth 32) = .ok (.frame seq n)) ∧
  ∀ (seq : Byte) (n : Half) (s : State),
    (s.phase = .ready → n.toNat ≤ 512 → ∃ t, exec (.frame seq n) s = .next t ∧
      (∀ a, a < 126 + n.toNat → t.tx.read a = (packet s (memRead s 0 n.toNat) seq)[a]?) ∧
      t.txLen.toNat = 126 + n.toNat ∧
      t = { s with tx := t.tx, txLen := t.txLen, txValid := true, status := .ok }) ∧
    (s.phase = .ready → 512 < n.toNat →
      exec (.frame seq n) s = .next { s with txValid := false, txLen := 0#10, status := .errLen }) ∧
    (s.phase = .config →
      exec (.frame seq n) s = .next { s with txValid := false, txLen := 0#10, status := .errPhase })

/-- R95: `SEND n`; of the bytes of `TX` beyond the packet nothing is said, as for `FRAME`. -/
def Obligations.SendEmitsDatagram : Prop :=
  (∀ n : Half, decode (0x12000000#32 ||| n.setWidth 32) = .ok (.send n)) ∧
  ∀ (n : Half) (s : State),
    (s.phase = .ready → n.toNat ≤ 512 → ∃ t, exec (.send n) s = .next t ∧
      t.seq.toNat = (s.seq.toNat + 1) % 256 ∧
      (∀ a, a < 126 + n.toNat → t.tx.read a = (packet s (memRead s 0 n.toNat) t.seq)[a]?) ∧
      t.txLen.toNat = 126 + n.toNat ∧
      t.txLog = s.txLog ++
        [⟨0xEFFF0000#32 ||| s.univ.setWidth 32, packet s (memRead s 0 n.toNat) t.seq⟩] ∧
      t = { s with seq := t.seq, tx := t.tx, txLen := t.txLen, txValid := true, txLog := t.txLog,
                   status := .ok }) ∧
    (s.phase = .ready → 512 < n.toNat →
      exec (.send n) s = .next { s with txValid := false, txLen := 0#10, status := .errLen }) ∧
    (s.phase = .config →
      exec (.send n) s = .next { s with txValid := false, txLen := 0#10, status := .errPhase })

/-- `NEXTSEQ`, read `RESULT`, `FRAME RESULT, n` produces the same bytes as `SEND n` (46_sender.md
section 3): the two differ in `RESULT` and `TXLOG` only. -/
def Obligations.SendIsNextseqThenFrame : Prop :=
  ∀ (n : Half) (s : State), s.phase = .ready → n.toNat ≤ 512 → ∃ a b c,
    exec .nextseq s = .next a ∧ exec (.frame (a.result.setWidth 8) n) a = .next b ∧
    exec (.send n) s = .next c ∧ c = { b with result := s.result, txLog := c.txLog }

/-- `FRAME` is idempotent (20_memory.md section 3; 45_assembler.md section 2): issued again with the same
operands and the same `IN` bytes it leaves the same state, whether it framed or failed. -/
def Obligations.FrameTwiceIsFrameOnce : Prop :=
  ∀ (seq : Byte) (n : Half) (s : State), ∃ t,
    exec (.frame seq n) s = .next t ∧ exec (.frame seq n) t = .next t

/-- R84: the packet depends only on `CID`, `NAME`, `PRIO`, `SYNC`, `OPT`, `UNIV`, the sequence number, the
channel bytes and the parameters (the two vectors are constants of Config): any two READY states that agree
on those frame identical output, whatever else they hold. -/
def Obligations.FramedPacketIsPure : Prop :=
  ∀ (seq : Byte) (n : Half) (s s' : State), s.phase = .ready → s'.phase = .ready → n.toNat ≤ 512 →
    s.cid = s'.cid → s.name = s'.name → s.prio = s'.prio → s.sync = s'.sync → s.opt = s'.opt →
    s.univ = s'.univ → s.params.frameLenAdj = s'.params.frameLenAdj →
    (∀ a, a < n.toNat → inByte s a = inByte s' a) →
    ∃ t t', exec (.frame seq n) s = .next t ∧ exec (.frame seq n) s' = .next t' ∧
      (∀ a, a < 126 + n.toNat → (t.tx.read a).isSome ∧ t.tx.read a = t'.tx.read a) ∧
      t.txLen = t'.txLen ∧ t.txValid = t'.txValid

/-! ## The pure commands -/

/-- R97: `MCADDR u`, in both phases. -/
def Obligations.McaddrComputesAddress : Prop :=
  ∀ u : Half, decode (0x13000000#32 ||| u.setWidth 32) = .ok (.mcaddr u) ∧
    ∀ s : State, exec (.mcaddr u) s =
      .next { s with result := 0xEFFF0000#32 ||| u.setWidth 32, status := .ok }

/-- R60: `PACKFL flags, len`, in both phases. -/
def Obligations.PackflComputesField : Prop :=
  ∀ (flags : Byte) (len : Half),
    decode (0x14000000#32 ||| flags.setWidth 32 <<< 16 ||| len.setWidth 32) = .ok (.packfl flags len) ∧
    ∀ s : State, exec (.packfl flags len) s =
      .next { s with result := 0#16 ++ flags.extractLsb' 0 4 ++ len.extractLsb' 0 12, status := .ok }

/-! ## The layers and the wire format -/

/-- R70, R71: `WRROOT(total)` writes `TX[0..37]` and nothing else, for every total the block uses. -/
def Obligations.WrrootWritesRootLayer : Prop :=
  ∀ (total : Half) (s : State), 126 ≤ total.toNat → total.toNat ≤ 638 →
    (rootLayer s total.toNat).length = 38 ∧
    (∀ a, a < 38 → (wrRoot total s).tx.read a = (rootLayer s total.toNat)[a]?) ∧
    (∀ a, 38 ≤ a → (wrRoot total s).tx.read a = s.tx.read a) ∧
    wrRoot total s = { s with tx := (wrRoot total s).tx }

/-- R73: `WRFRAME(total, seq)` writes `TX[38..114]` and nothing else. -/
def Obligations.WrframeWritesFramingLayer : Prop :=
  ∀ (total : Half) (seq : Byte) (s : State), 126 ≤ total.toNat → total.toNat ≤ 638 →
    (framingLayer s total.toNat seq).length = 77 ∧
    (∀ a, 38 ≤ a → a < 115 → (wrFrame total seq s).tx.read a = (framingLayer s total.toNat seq)[a - 38]?) ∧
    (∀ a, a < 38 ∨ 115 ≤ a → (wrFrame total seq s).tx.read a = s.tx.read a) ∧
    wrFrame total seq s = { s with tx := (wrFrame total seq s).tx }

/-- R78: `WRDMP(total, dmx)` writes `TX[115 .. 125+n]` and nothing else. -/
def Obligations.WrdmpWritesDmpLayer : Prop :=
  ∀ (total : Half) (dmx : List Byte) (s : State), dmx.length ≤ 512 → total.toNat = 126 + dmx.length →
    (dmpLayer total.toNat dmx).length = 11 + dmx.length ∧
    (∀ a, 115 ≤ a → a < 126 + dmx.length →
      (wrDmp total dmx s).tx.read a = (dmpLayer total.toNat dmx)[a - 115]?) ∧
    (∀ a, a < 115 ∨ 126 + dmx.length ≤ a → (wrDmp total dmx s).tx.read a = s.tx.read a) ∧
    wrDmp total dmx s = { s with tx := (wrDmp total dmx s).tx }

/-- R82: the stepwise assembler (zero fill, then the three layers' writes in order) leaves in `TX` exactly
the packet written as one expression, whatever `TX` held before, and sets `TXLEN` and `TXVALID`. -/
def Obligations.AssembleEqualsPacketExpression : Prop :=
  ∀ (dmx : List Byte) (seq : Byte) (s : State), dmx.length ≤ 512 →
    (packet s dmx seq).length = 126 + dmx.length ∧
    (∀ a, a < 126 + dmx.length → (assemble dmx seq s).tx.read a = (packet s dmx seq)[a]?) ∧
    (assemble dmx seq s).txLen.toNat = 126 + dmx.length ∧
    txBytes (assemble dmx seq s) = packet s dmx seq ∧
    assemble dmx seq s = { s with tx := (assemble dmx seq s).tx, txLen := (assemble dmx seq s).txLen,
                                  txValid := true }

/-- R50, R51, R52: the wire format, row by row. After every successful `FRAME` the field at each offset
of the table holds the value the table gives it. -/
def Obligations.WireFormatFieldByField : Prop :=
  ∀ (seq : Byte) (n : Half) (s : State), s.phase = .ready → n.toNat ≤ 512 →
    ∃ t, exec (.frame seq n) s = .next t ∧
      txRun t 0 2 = [some 0x00#8, some 0x10#8] ∧
      txRun t 2 2 = [some 0x00#8, some 0x00#8] ∧
      txRun t 4 12 = [some 0x41#8, some 0x53#8, some 0x43#8, some 0x2D#8, some 0x45#8, some 0x31#8,
        some 0x2E#8, some 0x31#8, some 0x37#8, some 0x00#8, some 0x00#8, some 0x00#8] ∧
      field16 t.tx 16 = some (0x7#4 ++ BitVec.ofNat 12 (126 + n.toNat - 15)) ∧
      txRun t 18 4 = (be 4 Config.rootVector).map some ∧
      txRun t 22 16 = s.cid.toList.map some ∧
      field16 t.tx 38 = some (0x7#4 ++ BitVec.ofNat 12 (126 + n.toNat - s.params.frameLenAdj.value.toNat)) ∧
      txRun t 40 4 = (be 4 Config.framingVector).map some ∧
      txRun t 44 64 = s.name.toList.map some ∧
      txRun t 108 1 = [some s.prio] ∧
      field16 t.tx 109 = some s.sync ∧
      txRun t 111 1 = [some seq] ∧
      (∃ o : Byte, txRun t 112 1 = [some o] ∧ ∀ i, i < 8 →
        o.getLsbD i = ((i == 6 && s.opt.p) || (i == 5 && s.opt.t) || (i == 4 && s.opt.f))) ∧
      field16 t.tx 113 = some s.univ ∧
      field16 t.tx 115 = some (0x7#4 ++ BitVec.ofNat 12 (126 + n.toNat - 114)) ∧
      txRun t 117 1 = [some 0x02#8] ∧
      txRun t 118 1 = [some 0xA1#8] ∧
      txRun t 119 2 = [some 0x00#8, some 0x00#8] ∧
      txRun t 121 2 = [some 0x00#8, some 0x01#8] ∧
      field16 t.tx 123 = some (BitVec.ofNat 16 (1 + n.toNat)) ∧
      txRun t 125 1 = [some 0x00#8] ∧
      txRun t 126 n.toNat = (List.range n.toNat).map fun i => some (inByte s i)

/-! ## Errors, and what commands leave alone -/

/-- Every command word ends with exactly one status, the first that applies in the order decode, phase,
the command's own check, `OK` (60_exceptions.md sections 1 and 3). The spec writes the limit of `LDNAME` as
512; that it follows the parameter `IN_SIZE`, 512 as decided, is the model's deduction, log entry 9. -/
def Obligations.FirstApplicableStatusIsReported : Prop :=
  ∀ (w : Word) (s : State), ∃ t, runWord w s = .next t ∧
    ((∃ e, decode w = .error e) → t.status = .errIllegal) ∧
    ((∃ i, decode w = .ok i) →
      let op := (w.extractLsb' 24 8).toNat
      let imm := (w.extractLsb' 0 16).toNat
      t.status =
        if (op ≤ 0x07 ∧ s.phase = .ready) ∨ (0x10 ≤ op ∧ op ≤ 0x12 ∧ s.phase = .config) then .errPhase
        else if (op = 0x11 ∨ op = 0x12) ∧ 512 < imm then .errLen
        else if op = 0x02 ∧ s.params.inSize < imm then .errNamelen
        else if op = 0x07 ∧ ¬(s.cidSet = true ∧ s.nameSet = true ∧ s.univSet = true) then .errUnconf
        else .ok)

/-- R109: a command that ends with an error status writes it to `STATUS`, clears `TXVALID` and `TXLEN` if
the word decoded as `FRAME` or `SEND`, and changes nothing else: no register, flag, memory byte or log. -/
def Obligations.ErrorsChangeNothingElse : Prop :=
  ∀ (w : Word) (s : State), ∃ t, runWord w s = .next t ∧ (t.status ≠ .ok →
    (((∃ seq n, decode w = .ok (.frame seq n)) ∨ ∃ n, decode w = .ok (.send n)) →
      t = { s with status := t.status, txValid := false, txLen := 0#10 }) ∧
    (¬((∃ seq n, decode w = .ok (.frame seq n)) ∨ ∃ n, decode w = .ok (.send n)) →
      t = { s with status := t.status }))

/-- Which command can change which register, memory or field: the "Written by" column of 10_state.md
section 1, the set-flags, `PHASE`, `TXVALID` and `TXLEN` of its sections 3 and 4, the memories of its
section 5 and the output history of its section 8. Every command completes. -/
def Obligations.CommandsWriteOnlyTheirOwn : Prop :=
  ∀ (i : Instr) (s : State), ∃ t, exec i s = .next t ∧
    (t.cid ≠ s.cid ∨ t.cidSet ≠ s.cidSet → i = .ldcid) ∧
    (t.name ≠ s.name ∨ t.nameLen ≠ s.nameLen ∨ t.nameSet ≠ s.nameSet → ∃ len, i = .ldname len) ∧
    (t.univ ≠ s.univ ∨ t.univSet ≠ s.univSet → ∃ u, i = .setuniv u) ∧
    (t.prio ≠ s.prio → ∃ p, i = .setprio p) ∧
    (t.sync ≠ s.sync → ∃ v, i = .setsync v) ∧
    (t.opt ≠ s.opt → ∃ m, i = .setopt m) ∧
    (t.phase ≠ s.phase → i = .commit) ∧
    (t.seq ≠ s.seq → i = .nextseq ∨ ∃ n, i = .send n) ∧
    (t.result ≠ s.result → i = .nextseq ∨ (∃ u, i = .mcaddr u) ∨ ∃ flags len, i = .packfl flags len) ∧
    (t.txValid ≠ s.txValid ∨ t.txLen ≠ s.txLen → (∃ q n, i = .frame q n) ∨ ∃ n, i = .send n) ∧
    (t.tx ≠ s.tx → t.status = .ok ∧ ((∃ q n, i = .frame q n) ∨ ∃ n, i = .send n)) ∧
    (t.txLog ≠ s.txLog → t.status = .ok ∧ ∃ n, i = .send n) ∧
    t.inMem = s.inMem ∧ t.life = s.life ∧ t.params = s.params ∧ (∀ a, inByte t a = inByte s a) ∧
    t.inbox = s.inbox ∧ t.replies = s.replies

/-! ## Steps: the host's actions -/

/-- A step runs the decoded command: when the host's next action is a word that decodes to i, the step is
exec of i on the state without that action, with the command's status answered to the host. (That the
actions stand in a list and the answers in another is the model's, log entries 1 and 2.) -/
def Obligations.StepRunsDecodedCommand : Prop :=
  (∀ (s t : State) (w : Word) (later : List HostAction) (i : Instr),
    s.inbox = .command w :: later → decode w = .ok i → exec i { s with inbox := later } = .next t →
    step s = .next { t with replies := t.replies ++ [.status t.status] }) ∧
  ∀ (s t : State) (v : Nat) (i : Instr), decodeTableWord 32 v = some i → exec i s = .next t →
    step (s.withFetchWord 32 v) = .next { t with replies := t.replies ++ [.status t.status] }

/-- A step with an illegal word: only `STATUS` changes, and `ERR_ILLEGAL` is answered (60_exceptions.md
section 1). -/
def Obligations.StepRejectsIllegalWord : Prop :=
  ∀ (s : State) (w : Word) (later : List HostAction) (e : Illegal),
    s.inbox = .command w :: later → decode w = .error e →
    step s = .next { s with inbox := later, status := .errIllegal,
                            replies := s.replies ++ [.status .errIllegal] }

/-- With no host action to come the block is idle and nothing changes (70_reset_and_hazards.md
section 5; log entry 1). -/
def Obligations.IdleBlockStaysAsItIs : Prop :=
  ∀ s : State, s.inbox = [] → step s = .next s

/-- `HostWriteIN(a, b)` changes that byte of `IN` and nothing else (20_memory.md sections 3 and 4; for
a below the parameter `IN_SIZE`, 512 as decided, log entry 9); for any other a there is no such action and
the model stops (log entry 11). -/
def Obligations.HostWriteChangesOneByte : Prop :=
  ∀ (s : State) (a : Nat) (b : Byte) (later : List HostAction), s.inbox = .writeIN a b :: later →
    (a < s.params.inSize → ∃ t, step s = .next t ∧ inByte t a = b ∧ (∀ c, c ≠ a → inByte t c = inByte s c) ∧
      t = { s with inMem := t.inMem, inbox := later }) ∧
    (s.params.inSize ≤ a → step s = .fault (.noSuchInAddress a))

/-- `HostReadTX(a)` changes nothing of the block and answers `TX[a]` for every byte of the packet
(20_memory.md sections 3 and 4); for a > 637 there is no such action and the model stops (log entry
11). -/
def Obligations.HostReadTxAnswersPacketByte : Prop :=
  ∀ (s : State) (a : Nat) (later : List HostAction), s.inbox = .readTX a :: later →
    (a ≤ 637 → ∃ b, step s = .next { s with inbox := later, replies := s.replies ++ [.byte b] } ∧
      (s.txValid = true → a < s.txLen.toNat → ∀ v, s.tx.read a = some v → b = v)) ∧
    (637 < a → step s = .fault (.noSuchTxAddress a))

/-- `HostReadReg(name)` changes nothing of the block and answers the register or field, of its own width
(20_memory.md sections 3 and 4); of `CID`, `NAME` and `UNIV` before they are loaded it answers any value,
of which nothing is said here. -/
def Obligations.HostReadRegAnswersRegister : Prop :=
  ∀ (s : State) (r : RegName) (later : List HostAction), s.inbox = .readReg r :: later →
    ∃ v, step s = .next { s with inbox := later, replies := s.replies ++ [.reg v] } ∧
      (r = .cid → s.cidSet = true → v = .bytes s.cid.toList) ∧
      (r = .name → s.nameSet = true → v = .bytes s.name.toList) ∧
      (r = .univ → s.univSet = true → v = .uint 16 s.univ.toNat) ∧
      (r = .namelen → v = .uint 6 s.nameLen.toNat) ∧
      (r = .prio → v = .uint 8 s.prio.toNat) ∧
      (r = .sync → v = .uint 16 s.sync.toNat) ∧
      (r = .opt → v = .uint 3 (4 * s.opt.p.toNat + 2 * s.opt.t.toNat + s.opt.f.toNat)) ∧
      (r = .seq → v = .uint 8 s.seq.toNat) ∧
      (r = .result → v = .uint 32 s.result.toNat) ∧
      (r = .cidset → v = .uint 1 s.cidSet.toNat) ∧
      (r = .nameset → v = .uint 1 s.nameSet.toNat) ∧
      (r = .univset → v = .uint 1 s.univSet.toNat) ∧
      (r = .phase → v = .uint 1 (if s.phase = .ready then 1 else 0)) ∧
      (r = .status → v = .uint 3 (match s.status with
        | .ok => 0 | .errIllegal => 1 | .errPhase => 2 | .errUnconf => 3 | .errLen => 4
        | .errNamelen => 5)) ∧
      (r = .txvalid → v = .uint 1 s.txValid.toNat) ∧
      (r = .txlen → v = .uint 10 s.txLen.toNat)

/-- `RESET`, at any time: every register and field with a reset value gets it (70_reset_and_hazards.md
section 1; 10_state.md section 7). What the host still means to do and has been told is kept, and a new
sender instance begins (log entry 10). -/
def Obligations.ResetActionRestoresResetValues : Prop :=
  ∀ (s : State) (later : List HostAction), s.inbox = .reset :: later → ∃ t, step s = .next t ∧
    t.phase = .config ∧ t.seq = 0#8 ∧ t.prio = 100#8 ∧ t.sync = 0#16 ∧ t.opt = ⟨false, false, false⟩ ∧
    t.cidSet = false ∧ t.nameSet = false ∧ t.univSet = false ∧ t.nameLen = 0#6 ∧ t.result = 0#32 ∧
    t.status = .ok ∧ t.txValid = false ∧ t.txLen = 0#10 ∧ t.txLog = [] ∧
    t.inbox = later ∧ t.replies = s.replies ∧ t.life = s.life + 1 ∧
    t.params = s.params

/-- The values the spec gives for reset (10_state.md section 7). -/
def Obligations.ResetStateHasSpecValues : Prop :=
  State.reset.phase = .config ∧ State.reset.seq = 0#8 ∧ State.reset.prio = 100#8 ∧
  State.reset.sync = 0#16 ∧ State.reset.opt = ⟨false, false, false⟩ ∧ State.reset.cidSet = false ∧
  State.reset.nameSet = false ∧ State.reset.univSet = false ∧ State.reset.nameLen = 0#6 ∧
  State.reset.result = 0#32 ∧ State.reset.status = .ok ∧ State.reset.txValid = false ∧
  State.reset.txLen = 0#10 ∧ State.reset.txLog = []

/-! ## Rules over all steps -/

/-- The block never halts (70_reset_and_hazards.md section 5): every step goes on, unless the host's next
action names a memory address that does not exist (`IN` has `IN_SIZE` bytes, log entry 9; the stop there is
log entry 11). -/
def Obligations.BlockNeverHalts : Prop :=
  ∀ s : State,
    (∀ a b later, s.inbox = .writeIN a b :: later → a < s.params.inSize) →
    (∀ a later, s.inbox = .readTX a :: later → a ≤ 637) → ∃ t, step s = .next t

/-- In READY the configuration is immutable and only `RESET` leaves the phase (10_state.md section 4;
46_sender.md section 1). -/
def Obligations.ReadyFreezesConfiguration : Prop :=
  ∀ s t : State, s.phase = .ready → (∀ later, s.inbox ≠ .reset :: later) → step s = .next t →
    t.phase = .ready ∧ t.cid = s.cid ∧ t.name = s.name ∧ t.nameLen = s.nameLen ∧ t.prio = s.prio ∧
    t.sync = s.sync ∧ t.opt = s.opt ∧ t.univ = s.univ ∧ t.cidSet = s.cidSet ∧ t.nameSet = s.nameSet ∧
    t.univSet = s.univSet

/-- `SEQ` advances by exactly 1 modulo 256 in a step that runs `NEXTSEQ` or `SEND` to `OK`, goes to 0 on
`RESET`, and in every other step keeps its value (60_exceptions.md section 6; 10_state.md section 1). -/
def Obligations.SequenceCounterAdvancesHoldsOrResets : Prop :=
  ∀ s t : State, step s = .next t →
    (∀ w later, s.inbox = .command w :: later →
      (decode w = .ok .nextseq ∨ ∃ n, decode w = .ok (.send n)) → t.status = .ok →
      t.seq = s.seq + 1#8) ∧
    (∀ later, s.inbox = .reset :: later → t.seq = 0#8) ∧
    ((∀ later, s.inbox ≠ .reset :: later) →
      (∀ w later, s.inbox = .command w :: later →
        (decode w = .ok .nextseq ∨ ∃ n, decode w = .ok (.send n)) → t.status ≠ .ok) →
      t.seq = s.seq)

/-- The output history only grows, by one entry per successful `SEND` (10_state.md section 8): in a step
other than `RESET` it is unchanged, or the step ran a `SEND` to `OK` and appended the packet now in `TX`
with the multicast address of the universe. -/
def Obligations.OutputHistoryGrowsOnlyBySend : Prop :=
  ∀ s t : State, (∀ later, s.inbox ≠ .reset :: later) → step s = .next t →
    t.txLog = s.txLog ∨
    ∃ w later n, s.inbox = .command w :: later ∧ decode w = .ok (.send n) ∧ t.status = .ok ∧
      t.txValid = true ∧ t.txLog = s.txLog ++ [⟨0xEFFF0000#32 ||| s.univ.setWidth 32, txBytes t⟩]

/-! ## Invariants every step keeps -/

/-- The invariants hold right after reset. -/
def Obligations.ResetMeetsInvariants : Prop :=
  MemoryCanonical State.reset ∧ TxInfoLegal State.reset ∧ NamePadded State.reset ∧
  ReadyIsConfigured State.reset ∧ TxSelfConsistent State.reset ∧ TxHoldsPacket State.reset ∧
  LogLegal State.reset ∧ LogNumbered State.reset

/-- Both memories stay in canonical form and within their address spaces (10_state.md section 5;
20_memory.md section 4: the block never forms an out-of-range address); `IN` has `IN_SIZE` bytes, log
entry 9. -/
def Obligations.StepKeepsMemoryCanonical : Prop :=
  ∀ s t : State, MemoryCanonical s → step s = .next t → MemoryCanonical t

/-- `TXVALID = 1` implies 126 ≤ `TXLEN` ≤ 638 and READY; `TXVALID = 0` implies `TXLEN = 0` (10_state.md
section 4). -/
def Obligations.StepKeepsTxInfoLegal : Prop :=
  ∀ s t : State, TxInfoLegal s → step s = .next t → TxInfoLegal t

/-- `NAME[i] = 0x00` for every i from `NAMELEN` on, once a name is loaded (10_state.md section 1). -/
def Obligations.StepKeepsNamePadded : Prop :=
  ∀ s t : State, NamePadded s → step s = .next t → NamePadded t

/-- READY is reached only with `CID`, `NAME` and `UNIV` loaded, and they stay loaded (10_state.md
section 3). -/
def Obligations.StepKeepsReadyConfigured : Prop :=
  ∀ s t : State, ReadyIsConfigured s → step s = .next t → ReadyIsConfigured t

/-- No partial or inconsistent packet is ever exposed (45_assembler.md section 2): with `TXVALID = 1`
`TX` lists exactly the bytes below `TXLEN` and the three length fields and the property-value count agree
with `TXLEN`. -/
def Obligations.StepKeepsTxSelfConsistent : Prop :=
  ∀ s t : State, TxSelfConsistent s → step s = .next t → TxSelfConsistent t

/-- With `TXVALID = 1`, `TX` is a whole packet of the block's own configuration (45_assembler.md
section 2). -/
def Obligations.StepKeepsTxHoldsPacket : Prop :=
  ∀ s t : State, TxHoldsPacket s → step s = .next t → TxHoldsPacket t

/-- Every entry of the output history has the destination `0xEFFF0000 | UNIV` and 126 to 638 bytes
(10_state.md section 8). -/
def Obligations.StepKeepsLogLegal : Prop :=
  ∀ s t : State, LogLegal s → step s = .next t → LogLegal t

/-- If the host never issues `NEXTSEQ` on its own, entry number i of the output history carries sequence
number i mod 256: no duplicates or gaps (10_state.md section 8). -/
def Obligations.StepKeepsLogNumbered : Prop :=
  ∀ s t : State, LogNumbered s →
    (∀ w later, s.inbox = .command w :: later → decode w ≠ .ok .nextseq) →
    step s = .next t → LogNumbered t

/-- The parameters are decided 37 and 512 after reset and no step changes them (00_scope.md section 4), so
each setting of them is one machine; that they stand in a field of State is the model's (log entry 19). -/
def Obligations.ParametersStayAsDecided : Prop :=
  State.reset.params.frameLenAdj.value = 37#16 ∧ State.reset.params.inSize = 512 ∧
  (∀ a : Config.FrameLenAdj, a.value = 37#16 ∨ a.value = 47#16) ∧
  ∀ s t : State, step s = .next t → t.params = s.params
end

