-- ==== Sys2Proof/Laws/Decode.lean ====
section
/-! SUPPORT. What `W & mask = match` says of the fields of `W`, for each mask of the opcode map
(30_encoding.md R45). -/

namespace Sys2Proof

/-- Keeping the upper `a` of `a + b` bits. -/
theorem and_upper (a b : Nat) (w : BitVec (a + b)) :
    w &&& (BitVec.allOnes a ++ 0#b) = w.extractLsb' b a ++ 0#b := by
  ext i hi
  simp only [BitVec.getElem_and, BitVec.getElem_append, BitVec.getElem_extractLsb']
  by_cases h : i < b
  · simp [h]
  · have e : b + (i - b) = i := by omega
    simp [h, e, BitVec.getLsbD_eq_getElem hi]

/-- The upper bits of an appended pair. -/
theorem extractLsb'_append_upper {a b : Nat} (x : BitVec a) (z : BitVec b) :
    (x ++ z).extractLsb' b a = x := by
  apply BitVec.eq_of_getLsbD_eq
  intro i hi
  simp [BitVec.getLsbD_append, hi]

/-- The lower bits of an appended pair. -/
theorem extractLsb'_append_lower {a b : Nat} (x : BitVec a) (z : BitVec b) :
    (x ++ z).extractLsb' 0 b = z := by
  apply BitVec.eq_of_getLsbD_eq
  intro i hi
  simp [BitVec.getLsbD_append, hi]

theorem append_zero_inj {a b : Nat} (x y : BitVec a) (z : BitVec b) : x ++ z = y ++ z ↔ x = y := by
  refine ⟨fun h => ?_, fun h => h ▸ rfl⟩
  have := congrArg (fun v => v.extractLsb' b a) h
  simpa only [extractLsb'_append_upper] using this

/-- The mask of format Z. -/
theorem and_mask_Z (w p : Word) : w &&& 0xFFFFFFFF#32 = p ↔ w = p := by
  rw [show w &&& 0xFFFFFFFF#32 = w from BitVec.and_allOnes]

/-- The mask of format I16. -/
theorem and_mask_I16 (w : Word) (p : Half) :
    w &&& 0xFFFF0000#32 = p ++ 0#16 ↔ w.extractLsb' 16 16 = p := by
  rw [show (0xFFFF0000#32 : BitVec (16 + 16)) = BitVec.allOnes 16 ++ 0#16 from rfl, and_upper 16 16 w,
    append_zero_inj]

/-- The mask of format I8. -/
theorem and_mask_I8 (w : Word) (p : BitVec 24) :
    w &&& 0xFFFFFF00#32 = p ++ 0#8 ↔ w.extractLsb' 8 24 = p := by
  rw [show (0xFFFFFF00#32 : BitVec (24 + 8)) = BitVec.allOnes 24 ++ 0#8 from rfl, and_upper 24 8 w,
    append_zero_inj]

/-- The mask of format F. -/
theorem and_mask_F (w : Word) (p : Byte) :
    w &&& 0xFF000000#32 = p ++ 0#24 ↔ w.extractLsb' 24 8 = p := by
  rw [show (0xFF000000#32 : BitVec (8 + 24)) = BitVec.allOnes 8 ++ 0#24 from rfl, and_upper 8 24 w,
    append_zero_inj]

/-- The mask of format O: the I8 mask and the mask 0x8F of the low byte. -/
theorem and_mask_O (w : Word) (p : BitVec 24) :
    w &&& 0xFFFFFF8F#32 = p ++ 0#8 ↔ w.extractLsb' 8 24 = p ∧ w.extractLsb' 0 8 &&& 0x8F#8 = 0#8 := by
  have parts : w = w.extractLsb' 8 24 ++ w.extractLsb' 0 8 := by
    apply BitVec.eq_of_getLsbD_eq
    intro i hi
    simp only [BitVec.getLsbD_append, BitVec.getLsbD_extractLsb']
    by_cases h : i < 8
    · simp [h]
    · have e : 8 + (i - 8) = i := by omega
      have : i - 8 < 24 := by omega
      simp [h, e, this]
  have mask : (0xFFFFFF8F#32 : Word) = BitVec.allOnes 24 ++ 0x8F#8 := rfl
  have both : w &&& 0xFFFFFF8F#32 = w.extractLsb' 8 24 ++ (w.extractLsb' 0 8 &&& 0x8F#8) := by
    conv_lhs => rw [parts, mask]
    rw [BitVec.and_append, BitVec.and_allOnes]
  rw [both]
  refine ⟨fun h => ⟨?_, ?_⟩, fun ⟨h₁, h₂⟩ => by rw [h₁, h₂]⟩
  · have := congrArg (fun v => v.extractLsb' 8 24) h
    simpa only [extractLsb'_append_upper] using this
  · have := congrArg (fun v => v.extractLsb' 0 8) h
    simpa only [extractLsb'_append_lower] using this

/-- The decoder as one chain of tests on the fields of the word, in the order of the opcode map. -/
theorem decode_eq_chain (w : Word) : decode w =
    if w = 0x01000000#32 then .ok .ldcid
    else if w.extractLsb' 16 16 = 0x0200#16 then .ok (.ldname (imm16 w))
    else if w.extractLsb' 16 16 = 0x0300#16 then .ok (.setuniv (imm16 w))
    else if w.extractLsb' 8 24 = 0x040000#24 then .ok (.setprio (imm8 w))
    else if w.extractLsb' 16 16 = 0x0500#16 then .ok (.setsync (imm16 w))
    else if w.extractLsb' 8 24 = 0x060000#24 ∧ w.extractLsb' 0 8 &&& 0x8F#8 = 0#8 then .ok (.setopt (imm8 w))
    else if w = 0x07000000#32 then .ok .commit
    else if w = 0x10000000#32 then .ok .nextseq
    else if w.extractLsb' 24 8 = 0x11#8 then .ok (.frame (a8 w) (imm16 w))
    else if w.extractLsb' 16 16 = 0x1200#16 then .ok (.send (imm16 w))
    else if w.extractLsb' 16 16 = 0x1300#16 then .ok (.mcaddr (imm16 w))
    else if w.extractLsb' 24 8 = 0x14#8 then .ok (.packfl (a8 w) (imm16 w))
    else .error (if opcodeListed (opcodeOf w) then .reservedBits else .unusedOpcode) := by
  have maskI16 : ∀ (p : Half) (q : Word), q = p ++ 0#16 →
      (w &&& 0xFFFF0000#32 = q ↔ w.extractLsb' 16 16 = p) := by
    rintro p _ rfl
    exact and_mask_I16 w p
  have maskI8 : w &&& 0xFFFFFF00#32 = 0x04000000#32 ↔ w.extractLsb' 8 24 = 0x040000#24 :=
    and_mask_I8 w 0x040000#24
  have maskF : ∀ (p : Byte) (q : Word), q = p ++ 0#24 →
      (w &&& 0xFF000000#32 = q ↔ w.extractLsb' 24 8 = p) := by
    rintro p _ rfl
    exact and_mask_F w p
  have maskO : w &&& 0xFFFFFF8F#32 = 0x06000000#32 ↔
      w.extractLsb' 8 24 = 0x060000#24 ∧ w.extractLsb' 0 8 &&& 0x8F#8 = 0#8 := and_mask_O w 0x060000#24
  simp only [decode, opcodeTable, List.find?, OpRow.spells, Bool.beq_eq_decide_eq, and_mask_Z, maskI8,
    maskO, maskI16 0x0200#16 0x02000000#32 rfl, maskI16 0x0300#16 0x03000000#32 rfl,
    maskI16 0x0500#16 0x05000000#32 rfl, maskI16 0x1200#16 0x12000000#32 rfl,
    maskI16 0x1300#16 0x13000000#32 rfl, maskF 0x11#8 0x11000000#32 rfl, maskF 0x14#8 0x14000000#32 rfl]
  by_cases h0 : w = 0x01000000#32
  · rw [if_pos h0, decide_eq_true h0]
  rw [if_neg h0, decide_eq_false h0]
  by_cases h1 : w.extractLsb' 16 16 = 0x0200#16
  · rw [if_pos h1, decide_eq_true h1]
  rw [if_neg h1, decide_eq_false h1]
  by_cases h2 : w.extractLsb' 16 16 = 0x0300#16
  · rw [if_pos h2, decide_eq_true h2]
  rw [if_neg h2, decide_eq_false h2]
  by_cases h3 : w.extractLsb' 8 24 = 0x040000#24
  · rw [if_pos h3, decide_eq_true h3]
  rw [if_neg h3, decide_eq_false h3]
  by_cases h4 : w.extractLsb' 16 16 = 0x0500#16
  · rw [if_pos h4, decide_eq_true h4]
  rw [if_neg h4, decide_eq_false h4]
  by_cases h5 : w.extractLsb' 8 24 = 0x060000#24 ∧ w.extractLsb' 0 8 &&& 0x8F#8 = 0#8
  · rw [if_pos h5, decide_eq_true h5]
  rw [if_neg h5, decide_eq_false h5]
  by_cases h6 : w = 0x07000000#32
  · rw [if_pos h6, decide_eq_true h6]
  rw [if_neg h6, decide_eq_false h6]
  by_cases h7 : w = 0x10000000#32
  · rw [if_pos h7, decide_eq_true h7]
  rw [if_neg h7, decide_eq_false h7]
  by_cases h8 : w.extractLsb' 24 8 = 0x11#8
  · rw [if_pos h8, decide_eq_true h8]
  rw [if_neg h8, decide_eq_false h8]
  by_cases h9 : w.extractLsb' 16 16 = 0x1200#16
  · rw [if_pos h9, decide_eq_true h9]
  rw [if_neg h9, decide_eq_false h9]
  by_cases h10 : w.extractLsb' 16 16 = 0x1300#16
  · rw [if_pos h10, decide_eq_true h10]
  rw [if_neg h10, decide_eq_false h10]
  by_cases h11 : w.extractLsb' 24 8 = 0x14#8
  · rw [if_pos h11, decide_eq_true h11]
  rw [if_neg h11, decide_eq_false h11]

/-! ## Command words as four bytes -/

/-- A word is its four bytes, most significant first. -/
theorem word_eq_bytes (w : Word) : w = opcodeOf w ++ a8 w ++ w.extractLsb' 8 8 ++ imm8 w := by
  apply BitVec.eq_of_getLsbD_eq
  intro i hi
  simp only [opcodeOf, a8, imm8, BitVec.getLsbD_append, BitVec.getLsbD_extractLsb']
  interval_cases i <;> simp

theorem word_of_bytes (w : Word) : ∃ o a b c : Byte, w = o ++ a ++ b ++ c :=
  ⟨_, _, _, _, word_eq_bytes w⟩

theorem half_of_bytes (h : Half) : ∃ a b : Byte, h = a ++ b := by
  refine ⟨h.extractLsb' 8 8, h.extractLsb' 0 8, ?_⟩
  apply BitVec.eq_of_getLsbD_eq
  intro i hi
  simp only [BitVec.getLsbD_append, BitVec.getLsbD_extractLsb']
  interval_cases i <;> simp

theorem bytes_31_24 (o a b c : Byte) : (o ++ a ++ b ++ c : Word).extractLsb' 24 8 = o := by
  apply BitVec.eq_of_getLsbD_eq
  intro i hi
  simp only [BitVec.getLsbD_append, BitVec.getLsbD_extractLsb']
  interval_cases i <;> simp

theorem bytes_31_16 (o a b c : Byte) : (o ++ a ++ b ++ c : Word).extractLsb' 16 16 = o ++ a := by
  apply BitVec.eq_of_getLsbD_eq
  intro i hi
  simp only [BitVec.getLsbD_append, BitVec.getLsbD_extractLsb']
  interval_cases i <;> simp

theorem bytes_31_8 (o a b c : Byte) : (o ++ a ++ b ++ c : Word).extractLsb' 8 24 = o ++ a ++ b := by
  apply BitVec.eq_of_getLsbD_eq
  intro i hi
  simp only [BitVec.getLsbD_append, BitVec.getLsbD_extractLsb']
  interval_cases i <;> simp

theorem bytes_23_16 (o a b c : Byte) : (o ++ a ++ b ++ c : Word).extractLsb' 16 8 = a := by
  apply BitVec.eq_of_getLsbD_eq
  intro i hi
  simp only [BitVec.getLsbD_append, BitVec.getLsbD_extractLsb']
  interval_cases i <;> simp

theorem bytes_23_8 (o a b c : Byte) : (o ++ a ++ b ++ c : Word).extractLsb' 8 16 = a ++ b := by
  apply BitVec.eq_of_getLsbD_eq
  intro i hi
  simp only [BitVec.getLsbD_append, BitVec.getLsbD_extractLsb']
  interval_cases i <;> simp

theorem bytes_23_0 (o a b c : Byte) : (o ++ a ++ b ++ c : Word).extractLsb' 0 24 = a ++ b ++ c := by
  apply BitVec.eq_of_getLsbD_eq
  intro i hi
  simp only [BitVec.getLsbD_append, BitVec.getLsbD_extractLsb']
  interval_cases i <;> simp

theorem bytes_15_0 (o a b c : Byte) : (o ++ a ++ b ++ c : Word).extractLsb' 0 16 = b ++ c := by
  apply BitVec.eq_of_getLsbD_eq
  intro i hi
  simp only [BitVec.getLsbD_append, BitVec.getLsbD_extractLsb']
  interval_cases i <;> simp

theorem bytes_7_0 (o a b c : Byte) : (o ++ a ++ b ++ c : Word).extractLsb' 0 8 = c := by
  apply BitVec.eq_of_getLsbD_eq
  intro i hi
  simp only [BitVec.getLsbD_append, BitVec.getLsbD_extractLsb']
  interval_cases i <;> simp

theorem bytes_append_half (o a b c : Byte) : (o ++ a ++ (b ++ c : Half) : Word) = o ++ a ++ b ++ c := by
  apply BitVec.eq_of_getLsbD_eq
  intro i hi
  simp only [BitVec.getLsbD_append]
  interval_cases i <;> simp

theorem bytes2_inj (a b c d : Byte) : (a ++ b : Half) = c ++ d ↔ a = c ∧ b = d := by
  refine ⟨fun h => ⟨?_, ?_⟩, fun ⟨h₁, h₂⟩ => by rw [h₁, h₂]⟩
  · simpa only [extractLsb'_append_upper] using congrArg (fun v => v.extractLsb' 8 8) h
  · simpa only [extractLsb'_append_lower] using congrArg (fun v => v.extractLsb' 0 8) h

theorem bytes3_inj (a b c d e f : Byte) :
    (a ++ b ++ c : BitVec 24) = d ++ e ++ f ↔ a = d ∧ b = e ∧ c = f := by
  refine ⟨fun h => ?_, fun ⟨h₁, h₂, h₃⟩ => by rw [h₁, h₂, h₃]⟩
  have upper : (a ++ b : Half) = d ++ e := by
    simpa only [extractLsb'_append_upper] using congrArg (fun v => v.extractLsb' 8 16) h
  have ⟨h₁, h₂⟩ := (bytes2_inj ..).1 upper
  exact ⟨h₁, h₂, by simpa only [extractLsb'_append_lower] using congrArg (fun v => v.extractLsb' 0 8) h⟩

theorem bytes4_inj (a b c d e f g k : Byte) :
    (a ++ b ++ c ++ d : Word) = e ++ f ++ g ++ k ↔ a = e ∧ b = f ∧ c = g ∧ d = k := by
  refine ⟨fun h => ?_, fun ⟨h₁, h₂, h₃, h₄⟩ => by rw [h₁, h₂, h₃, h₄]⟩
  have upper : (a ++ b ++ c : BitVec 24) = e ++ f ++ g := by
    simpa only [extractLsb'_append_upper] using congrArg (fun v => v.extractLsb' 8 24) h
  have ⟨h₁, h₂, h₃⟩ := (bytes3_inj ..).1 upper
  exact ⟨h₁, h₂, h₃, by
    simpa only [extractLsb'_append_lower] using congrArg (fun v => v.extractLsb' 0 8) h⟩

/-- The decoder on the four bytes of a word. -/
theorem decode_bytes (o a b c : Byte) : decode (o ++ a ++ b ++ c) =
    if o = 0x01#8 ∧ a = 0#8 ∧ b = 0#8 ∧ c = 0#8 then .ok .ldcid
    else if o = 0x02#8 ∧ a = 0#8 then .ok (.ldname (b ++ c))
    else if o = 0x03#8 ∧ a = 0#8 then .ok (.setuniv (b ++ c))
    else if o = 0x04#8 ∧ a = 0#8 ∧ b = 0#8 then .ok (.setprio c)
    else if o = 0x05#8 ∧ a = 0#8 then .ok (.setsync (b ++ c))
    else if (o = 0x06#8 ∧ a = 0#8 ∧ b = 0#8) ∧ c &&& 0x8F#8 = 0#8 then .ok (.setopt c)
    else if o = 0x07#8 ∧ a = 0#8 ∧ b = 0#8 ∧ c = 0#8 then .ok .commit
    else if o = 0x10#8 ∧ a = 0#8 ∧ b = 0#8 ∧ c = 0#8 then .ok .nextseq
    else if o = 0x11#8 then .ok (.frame a (b ++ c))
    else if o = 0x12#8 ∧ a = 0#8 then .ok (.send (b ++ c))
    else if o = 0x13#8 ∧ a = 0#8 then .ok (.mcaddr (b ++ c))
    else if o = 0x14#8 then .ok (.packfl a (b ++ c))
    else .error (if opcodeListed o then .reservedBits else .unusedOpcode) := by
  rw [decode_eq_chain]
  simp only [imm16, imm8, a8, opcodeOf, bytes_31_24, bytes_31_16, bytes_31_8, bytes_23_16, bytes_15_0,
    bytes_7_0]
  rw [show 0x01000000#32 = 0x01#8 ++ 0#8 ++ 0#8 ++ 0#8 from rfl,
    show 0x07000000#32 = 0x07#8 ++ 0#8 ++ 0#8 ++ 0#8 from rfl,
    show 0x10000000#32 = 0x10#8 ++ 0#8 ++ 0#8 ++ 0#8 from rfl,
    show 0x0200#16 = 0x02#8 ++ 0#8 from rfl, show 0x0300#16 = 0x03#8 ++ 0#8 from rfl,
    show 0x0500#16 = 0x05#8 ++ 0#8 from rfl, show 0x1200#16 = 0x12#8 ++ 0#8 from rfl,
    show 0x1300#16 = 0x13#8 ++ 0#8 from rfl, show 0x040000#24 = 0x04#8 ++ 0#8 ++ 0#8 from rfl,
    show 0x060000#24 = 0x06#8 ++ 0#8 ++ 0#8 from rfl]
  simp only [bytes2_inj, bytes3_inj, bytes4_inj]

/-- The bits a `SETOPT` mask must leave 0 are 0x8F. -/
theorem maskWellFormed_iff (m : Byte) : maskWellFormed m = true ↔ m &&& 0x8F#8 = 0#8 := by
  revert m
  decide

/-- The opcodes of the table. -/
theorem opcodeListed_iff (o : Byte) : opcodeListed o = true ↔
    o = 0x01#8 ∨ o = 0x02#8 ∨ o = 0x03#8 ∨ o = 0x04#8 ∨ o = 0x05#8 ∨ o = 0x06#8 ∨ o = 0x07#8 ∨
      o = 0x10#8 ∨ o = 0x11#8 ∨ o = 0x12#8 ∨ o = 0x13#8 ∨ o = 0x14#8 := by
  revert o
  decide

/-- A word whose opcode is not in the table. -/
theorem decode_unlisted {o : Byte} (h : opcodeListed o = false) (a b c : Byte) :
    decode (o ++ a ++ b ++ c) = .error .unusedOpcode := by
  have hn : ¬opcodeListed o = true := by simp [h]
  rw [opcodeListed_iff] at hn
  simp only [not_or] at hn
  obtain ⟨h1, h2, h3, h4, h5, h6, h7, h8, h9, h10, h11, h12⟩ := hn
  rw [decode_bytes]
  simp only [h1, h2, h3, h4, h5, h6, h7, h8, h9, h10, h11, h12, h, false_and, if_false]
  rfl

end Sys2Proof
end

