-- ==== Sys2Proof/Laws/Memory.lean ====
section
/-! SUPPORT. Byte memories: a read after a write, and that every memory operation keeps the canonical
form and the address bound. -/

namespace Sys2Proof.Machine

/-! ## Reads -/

@[simp] theorem Memory.read_nil (a : Nat) : Memory.read [] a = none := rfl

theorem Memory.read_cons (k : Nat) (v : Byte) (m : Memory) (a : Nat) :
    Memory.read ((k, v) :: m) a = if k = a then some v else Memory.read m a := rfl

/-- Reading after a write: the byte written at its address, every other byte as before. -/
theorem Memory.read_write (m : Memory) (a : Nat) (b : Byte) (c : Nat) :
    (m.write a b).read c = if c = a then some b else m.read c := by
  induction m with
  | nil => simp [Memory.write, Memory.read, eq_comm]
  | cons kv m ih =>
    obtain ⟨k, v⟩ := kv
    simp only [Memory.write]
    split
    · simp [Memory.read, eq_comm]
    · split
      · subst_vars
        simp only [Memory.read]
        split <;> simp_all [eq_comm]
      · simp only [Memory.read, ih]
        split
        · rename_i hk hn h
          subst h
          simp [Ne.symm hn]
        · rfl

/-- Reading after a run of bytes is written. -/
theorem Memory.read_writeBytes (bs : List Byte) (m : Memory) (a c : Nat) :
    (m.writeBytes a bs).read c =
      if a ≤ c ∧ c < a + bs.length then bs[c - a]? else m.read c := by
  induction bs generalizing m a with
  | nil => simp [Memory.writeBytes]
  | cons b bs ih =>
    simp only [Memory.writeBytes, ih, Memory.read_write, List.length_cons]
    by_cases hc : c = a
    · subst hc
      simp
    · by_cases h : a + 1 ≤ c ∧ c < a + 1 + bs.length
      · have e : c - a = (c - (a + 1)) + 1 := by omega
        rw [if_pos h, if_pos (by omega), e, List.getElem?_cons_succ]
      · rw [if_neg h, if_neg hc, if_neg (by omega)]

/-- Two adjoining runs are one run. -/
theorem Memory.writeBytes_append (m : Memory) (a : Nat) (bs cs : List Byte) :
    m.writeBytes a (bs ++ cs) = (m.writeBytes a bs).writeBytes (a + bs.length) cs := by
  induction bs generalizing m a with
  | nil => rfl
  | cons b bs ih =>
    simp only [List.cons_append, Memory.writeBytes, ih, List.length_cons]
    rw [Nat.add_right_comm, Nat.add_assoc]

/-- Outside the bytes written a read is as before. -/
theorem Memory.read_writeBytes_outside (m : Memory) (a : Nat) (bs : List Byte) (c : Nat)
    (h : c < a ∨ a + bs.length ≤ c) : (m.writeBytes a bs).read c = m.read c := by
  rw [Memory.read_writeBytes, if_neg (by omega)]

/-- A zero-filled buffer lists exactly its own bytes. -/
theorem Memory.read_zeroFilled (n a : Nat) :
    (Memory.zeroFilled n).read a = if a < n then some 0x00#8 else none := by
  have key : ∀ l : List Nat, Memory.read (l.map fun a => (a, 0x00#8)) a =
      if a ∈ l then some 0x00#8 else none := by
    intro l
    induction l with
    | nil => rfl
    | cons k l ih =>
      simp only [List.map_cons, Memory.read, ih, List.mem_cons]
      by_cases h : k = a
      · simp [h]
      · simp [h, Ne.symm h]
  simpa [Memory.zeroFilled] using key (List.range n)

/-! ## The canonical form -/

theorem Memory.mem_write {m : Memory} {a : Nat} {b : Byte} {c : Host.Cell}
    (h : c ∈ m.write a b) : c = (a, b) ∨ c ∈ m := by
  induction m with
  | nil => simpa [Memory.write] using h
  | cons kv m ih =>
    obtain ⟨k, v⟩ := kv
    simp only [Memory.write] at h
    split at h
    · simpa using h
    · split at h
      · rcases List.mem_cons.1 h with rfl | h
        · exact .inl rfl
        · exact .inr (List.mem_cons_of_mem _ h)
      · rcases List.mem_cons.1 h with rfl | h
        · exact .inr (List.mem_cons_self ..)
        · exact (ih h).imp_right (List.mem_cons_of_mem _)

theorem Memory.wf_write {m : Memory} (h : m.wf) (a : Nat) (b : Byte) : (m.write a b).wf := by
  induction m with
  | nil => exact List.pairwise_singleton ..
  | cons kv m ih =>
    obtain ⟨k, v⟩ := kv
    have h' := List.pairwise_cons.1 h
    simp only [Memory.write]
    split
    · rename_i hlt
      refine List.pairwise_cons.2 ⟨fun c hc => ?_, h⟩
      rcases List.mem_cons.1 hc with rfl | hc
      · exact hlt
      · exact Nat.lt_trans hlt (h'.1 c hc)
    · split
      · rename_i he
        subst he
        exact List.pairwise_cons.2 ⟨h'.1, h'.2⟩
      · refine List.pairwise_cons.2 ⟨fun c hc => ?_, ih h'.2⟩
        rcases Memory.mem_write hc with rfl | hc
        · simp only
          omega
        · exact h'.1 c hc

theorem Memory.wf_writeBytes {m : Memory} (h : m.wf) (a : Nat) (bs : List Byte) :
    (m.writeBytes a bs).wf := by
  induction bs generalizing m a with
  | nil => exact h
  | cons b bs ih => exact ih (Memory.wf_write h a b) (a + 1)

theorem Memory.wf_zeroFilled (n : Nat) : (Memory.zeroFilled n).wf :=
  List.pairwise_map.2 (List.pairwise_lt_range (n := n))

/-! ## The address bound -/

theorem Memory.write_below {m : Memory} {n : Nat} (h : ∀ c ∈ m, c.1 < n) {a : Nat} (ha : a < n)
    (b : Byte) : ∀ c ∈ m.write a b, c.1 < n := by
  intro c hc
  rcases Memory.mem_write hc with rfl | hc
  · exact ha
  · exact h c hc

theorem Memory.writeBytes_below {m : Memory} {n : Nat} (h : ∀ c ∈ m, c.1 < n) {a : Nat}
    {bs : List Byte} (ha : a + bs.length ≤ n) : ∀ c ∈ m.writeBytes a bs, c.1 < n := by
  induction bs generalizing m a with
  | nil => exact h
  | cons b bs ih =>
    simp only [List.length_cons] at ha
    exact ih (Memory.write_below h (by omega) b) (by omega)

theorem Memory.zeroFilled_below (n : Nat) : ∀ c ∈ Memory.zeroFilled n, c.1 < n := by
  intro c hc
  obtain ⟨a, ha, rfl⟩ := List.mem_map.1 hc
  exact List.mem_range.1 ha

end Sys2Proof.Machine
end

