-- ==== Sys2Proof/Laws/State.lean ====
section
/-! SUPPORT. One lemma per field per register write: what the write puts there, or that it leaves the
field alone. -/

namespace Sys2Proof.Machine

variable (s : State)

@[simp] theorem setStatus_cid (st : Status) : (setStatus st s).cid = s.cid := rfl
@[simp] theorem setStatus_name (st : Status) : (setStatus st s).name = s.name := rfl
@[simp] theorem setStatus_nameLen (st : Status) : (setStatus st s).nameLen = s.nameLen := rfl
@[simp] theorem setStatus_prio (st : Status) : (setStatus st s).prio = s.prio := rfl
@[simp] theorem setStatus_sync (st : Status) : (setStatus st s).sync = s.sync := rfl
@[simp] theorem setStatus_opt (st : Status) : (setStatus st s).opt = s.opt := rfl
@[simp] theorem setStatus_univ (st : Status) : (setStatus st s).univ = s.univ := rfl
@[simp] theorem setStatus_seq (st : Status) : (setStatus st s).seq = s.seq := rfl
@[simp] theorem setStatus_result (st : Status) : (setStatus st s).result = s.result := rfl
@[simp] theorem setStatus_cidSet (st : Status) : (setStatus st s).cidSet = s.cidSet := rfl
@[simp] theorem setStatus_nameSet (st : Status) : (setStatus st s).nameSet = s.nameSet := rfl
@[simp] theorem setStatus_univSet (st : Status) : (setStatus st s).univSet = s.univSet := rfl
@[simp] theorem setStatus_phase (st : Status) : (setStatus st s).phase = s.phase := rfl
@[simp] theorem setStatus_status (st : Status) : (setStatus st s).status = st := rfl
@[simp] theorem setStatus_txValid (st : Status) : (setStatus st s).txValid = s.txValid := rfl
@[simp] theorem setStatus_txLen (st : Status) : (setStatus st s).txLen = s.txLen := rfl
@[simp] theorem setStatus_inMem (st : Status) : (setStatus st s).inMem = s.inMem := rfl
@[simp] theorem setStatus_tx (st : Status) : (setStatus st s).tx = s.tx := rfl
@[simp] theorem setStatus_txLog (st : Status) : (setStatus st s).txLog = s.txLog := rfl
@[simp] theorem setStatus_inbox (st : Status) : (setStatus st s).inbox = s.inbox := rfl
@[simp] theorem setStatus_replies (st : Status) : (setStatus st s).replies = s.replies := rfl
@[simp] theorem setStatus_life (st : Status) : (setStatus st s).life = s.life := rfl
@[simp] theorem setStatus_params (st : Status) : (setStatus st s).params = s.params := rfl

@[simp] theorem setCid_cid (v : Vector Byte 16) : (setCid v s).cid = v := rfl
@[simp] theorem setCid_name (v : Vector Byte 16) : (setCid v s).name = s.name := rfl
@[simp] theorem setCid_nameLen (v : Vector Byte 16) : (setCid v s).nameLen = s.nameLen := rfl
@[simp] theorem setCid_prio (v : Vector Byte 16) : (setCid v s).prio = s.prio := rfl
@[simp] theorem setCid_sync (v : Vector Byte 16) : (setCid v s).sync = s.sync := rfl
@[simp] theorem setCid_opt (v : Vector Byte 16) : (setCid v s).opt = s.opt := rfl
@[simp] theorem setCid_univ (v : Vector Byte 16) : (setCid v s).univ = s.univ := rfl
@[simp] theorem setCid_seq (v : Vector Byte 16) : (setCid v s).seq = s.seq := rfl
@[simp] theorem setCid_result (v : Vector Byte 16) : (setCid v s).result = s.result := rfl
@[simp] theorem setCid_cidSet (v : Vector Byte 16) : (setCid v s).cidSet = true := rfl
@[simp] theorem setCid_nameSet (v : Vector Byte 16) : (setCid v s).nameSet = s.nameSet := rfl
@[simp] theorem setCid_univSet (v : Vector Byte 16) : (setCid v s).univSet = s.univSet := rfl
@[simp] theorem setCid_phase (v : Vector Byte 16) : (setCid v s).phase = s.phase := rfl
@[simp] theorem setCid_status (v : Vector Byte 16) : (setCid v s).status = s.status := rfl
@[simp] theorem setCid_txValid (v : Vector Byte 16) : (setCid v s).txValid = s.txValid := rfl
@[simp] theorem setCid_txLen (v : Vector Byte 16) : (setCid v s).txLen = s.txLen := rfl
@[simp] theorem setCid_inMem (v : Vector Byte 16) : (setCid v s).inMem = s.inMem := rfl
@[simp] theorem setCid_tx (v : Vector Byte 16) : (setCid v s).tx = s.tx := rfl
@[simp] theorem setCid_txLog (v : Vector Byte 16) : (setCid v s).txLog = s.txLog := rfl
@[simp] theorem setCid_inbox (v : Vector Byte 16) : (setCid v s).inbox = s.inbox := rfl
@[simp] theorem setCid_replies (v : Vector Byte 16) : (setCid v s).replies = s.replies := rfl
@[simp] theorem setCid_life (v : Vector Byte 16) : (setCid v s).life = s.life := rfl
@[simp] theorem setCid_params (v : Vector Byte 16) : (setCid v s).params = s.params := rfl

@[simp] theorem setName_cid (v : Vector Byte 64) (k : BitVec 6) : (setName v k s).cid = s.cid := rfl
@[simp] theorem setName_name (v : Vector Byte 64) (k : BitVec 6) : (setName v k s).name = v := rfl
@[simp] theorem setName_nameLen (v : Vector Byte 64) (k : BitVec 6) : (setName v k s).nameLen = k := rfl
@[simp] theorem setName_prio (v : Vector Byte 64) (k : BitVec 6) : (setName v k s).prio = s.prio := rfl
@[simp] theorem setName_sync (v : Vector Byte 64) (k : BitVec 6) : (setName v k s).sync = s.sync := rfl
@[simp] theorem setName_opt (v : Vector Byte 64) (k : BitVec 6) : (setName v k s).opt = s.opt := rfl
@[simp] theorem setName_univ (v : Vector Byte 64) (k : BitVec 6) : (setName v k s).univ = s.univ := rfl
@[simp] theorem setName_seq (v : Vector Byte 64) (k : BitVec 6) : (setName v k s).seq = s.seq := rfl
@[simp] theorem setName_result (v : Vector Byte 64) (k : BitVec 6) : (setName v k s).result = s.result := rfl
@[simp] theorem setName_cidSet (v : Vector Byte 64) (k : BitVec 6) : (setName v k s).cidSet = s.cidSet := rfl
@[simp] theorem setName_nameSet (v : Vector Byte 64) (k : BitVec 6) : (setName v k s).nameSet = true := rfl
@[simp] theorem setName_univSet (v : Vector Byte 64) (k : BitVec 6) : (setName v k s).univSet = s.univSet := rfl
@[simp] theorem setName_phase (v : Vector Byte 64) (k : BitVec 6) : (setName v k s).phase = s.phase := rfl
@[simp] theorem setName_status (v : Vector Byte 64) (k : BitVec 6) : (setName v k s).status = s.status := rfl
@[simp] theorem setName_txValid (v : Vector Byte 64) (k : BitVec 6) : (setName v k s).txValid = s.txValid := rfl
@[simp] theorem setName_txLen (v : Vector Byte 64) (k : BitVec 6) : (setName v k s).txLen = s.txLen := rfl
@[simp] theorem setName_inMem (v : Vector Byte 64) (k : BitVec 6) : (setName v k s).inMem = s.inMem := rfl
@[simp] theorem setName_tx (v : Vector Byte 64) (k : BitVec 6) : (setName v k s).tx = s.tx := rfl
@[simp] theorem setName_txLog (v : Vector Byte 64) (k : BitVec 6) : (setName v k s).txLog = s.txLog := rfl
@[simp] theorem setName_inbox (v : Vector Byte 64) (k : BitVec 6) : (setName v k s).inbox = s.inbox := rfl
@[simp] theorem setName_replies (v : Vector Byte 64) (k : BitVec 6) : (setName v k s).replies = s.replies := rfl
@[simp] theorem setName_life (v : Vector Byte 64) (k : BitVec 6) : (setName v k s).life = s.life := rfl
@[simp] theorem setName_params (v : Vector Byte 64) (k : BitVec 6) : (setName v k s).params = s.params := rfl

@[simp] theorem setUniv_cid (u : Half) : (setUniv u s).cid = s.cid := rfl
@[simp] theorem setUniv_name (u : Half) : (setUniv u s).name = s.name := rfl
@[simp] theorem setUniv_nameLen (u : Half) : (setUniv u s).nameLen = s.nameLen := rfl
@[simp] theorem setUniv_prio (u : Half) : (setUniv u s).prio = s.prio := rfl
@[simp] theorem setUniv_sync (u : Half) : (setUniv u s).sync = s.sync := rfl
@[simp] theorem setUniv_opt (u : Half) : (setUniv u s).opt = s.opt := rfl
@[simp] theorem setUniv_univ (u : Half) : (setUniv u s).univ = u := rfl
@[simp] theorem setUniv_seq (u : Half) : (setUniv u s).seq = s.seq := rfl
@[simp] theorem setUniv_result (u : Half) : (setUniv u s).result = s.result := rfl
@[simp] theorem setUniv_cidSet (u : Half) : (setUniv u s).cidSet = s.cidSet := rfl
@[simp] theorem setUniv_nameSet (u : Half) : (setUniv u s).nameSet = s.nameSet := rfl
@[simp] theorem setUniv_univSet (u : Half) : (setUniv u s).univSet = true := rfl
@[simp] theorem setUniv_phase (u : Half) : (setUniv u s).phase = s.phase := rfl
@[simp] theorem setUniv_status (u : Half) : (setUniv u s).status = s.status := rfl
@[simp] theorem setUniv_txValid (u : Half) : (setUniv u s).txValid = s.txValid := rfl
@[simp] theorem setUniv_txLen (u : Half) : (setUniv u s).txLen = s.txLen := rfl
@[simp] theorem setUniv_inMem (u : Half) : (setUniv u s).inMem = s.inMem := rfl
@[simp] theorem setUniv_tx (u : Half) : (setUniv u s).tx = s.tx := rfl
@[simp] theorem setUniv_txLog (u : Half) : (setUniv u s).txLog = s.txLog := rfl
@[simp] theorem setUniv_inbox (u : Half) : (setUniv u s).inbox = s.inbox := rfl
@[simp] theorem setUniv_replies (u : Half) : (setUniv u s).replies = s.replies := rfl
@[simp] theorem setUniv_life (u : Half) : (setUniv u s).life = s.life := rfl
@[simp] theorem setUniv_params (u : Half) : (setUniv u s).params = s.params := rfl

@[simp] theorem setPrio_cid (p : Byte) : (setPrio p s).cid = s.cid := rfl
@[simp] theorem setPrio_name (p : Byte) : (setPrio p s).name = s.name := rfl
@[simp] theorem setPrio_nameLen (p : Byte) : (setPrio p s).nameLen = s.nameLen := rfl
@[simp] theorem setPrio_prio (p : Byte) : (setPrio p s).prio = p := rfl
@[simp] theorem setPrio_sync (p : Byte) : (setPrio p s).sync = s.sync := rfl
@[simp] theorem setPrio_opt (p : Byte) : (setPrio p s).opt = s.opt := rfl
@[simp] theorem setPrio_univ (p : Byte) : (setPrio p s).univ = s.univ := rfl
@[simp] theorem setPrio_seq (p : Byte) : (setPrio p s).seq = s.seq := rfl
@[simp] theorem setPrio_result (p : Byte) : (setPrio p s).result = s.result := rfl
@[simp] theorem setPrio_cidSet (p : Byte) : (setPrio p s).cidSet = s.cidSet := rfl
@[simp] theorem setPrio_nameSet (p : Byte) : (setPrio p s).nameSet = s.nameSet := rfl
@[simp] theorem setPrio_univSet (p : Byte) : (setPrio p s).univSet = s.univSet := rfl
@[simp] theorem setPrio_phase (p : Byte) : (setPrio p s).phase = s.phase := rfl
@[simp] theorem setPrio_status (p : Byte) : (setPrio p s).status = s.status := rfl
@[simp] theorem setPrio_txValid (p : Byte) : (setPrio p s).txValid = s.txValid := rfl
@[simp] theorem setPrio_txLen (p : Byte) : (setPrio p s).txLen = s.txLen := rfl
@[simp] theorem setPrio_inMem (p : Byte) : (setPrio p s).inMem = s.inMem := rfl
@[simp] theorem setPrio_tx (p : Byte) : (setPrio p s).tx = s.tx := rfl
@[simp] theorem setPrio_txLog (p : Byte) : (setPrio p s).txLog = s.txLog := rfl
@[simp] theorem setPrio_inbox (p : Byte) : (setPrio p s).inbox = s.inbox := rfl
@[simp] theorem setPrio_replies (p : Byte) : (setPrio p s).replies = s.replies := rfl
@[simp] theorem setPrio_life (p : Byte) : (setPrio p s).life = s.life := rfl
@[simp] theorem setPrio_params (p : Byte) : (setPrio p s).params = s.params := rfl

@[simp] theorem setSync_cid (u : Half) : (setSync u s).cid = s.cid := rfl
@[simp] theorem setSync_name (u : Half) : (setSync u s).name = s.name := rfl
@[simp] theorem setSync_nameLen (u : Half) : (setSync u s).nameLen = s.nameLen := rfl
@[simp] theorem setSync_prio (u : Half) : (setSync u s).prio = s.prio := rfl
@[simp] theorem setSync_sync (u : Half) : (setSync u s).sync = u := rfl
@[simp] theorem setSync_opt (u : Half) : (setSync u s).opt = s.opt := rfl
@[simp] theorem setSync_univ (u : Half) : (setSync u s).univ = s.univ := rfl
@[simp] theorem setSync_seq (u : Half) : (setSync u s).seq = s.seq := rfl
@[simp] theorem setSync_result (u : Half) : (setSync u s).result = s.result := rfl
@[simp] theorem setSync_cidSet (u : Half) : (setSync u s).cidSet = s.cidSet := rfl
@[simp] theorem setSync_nameSet (u : Half) : (setSync u s).nameSet = s.nameSet := rfl
@[simp] theorem setSync_univSet (u : Half) : (setSync u s).univSet = s.univSet := rfl
@[simp] theorem setSync_phase (u : Half) : (setSync u s).phase = s.phase := rfl
@[simp] theorem setSync_status (u : Half) : (setSync u s).status = s.status := rfl
@[simp] theorem setSync_txValid (u : Half) : (setSync u s).txValid = s.txValid := rfl
@[simp] theorem setSync_txLen (u : Half) : (setSync u s).txLen = s.txLen := rfl
@[simp] theorem setSync_inMem (u : Half) : (setSync u s).inMem = s.inMem := rfl
@[simp] theorem setSync_tx (u : Half) : (setSync u s).tx = s.tx := rfl
@[simp] theorem setSync_txLog (u : Half) : (setSync u s).txLog = s.txLog := rfl
@[simp] theorem setSync_inbox (u : Half) : (setSync u s).inbox = s.inbox := rfl
@[simp] theorem setSync_replies (u : Half) : (setSync u s).replies = s.replies := rfl
@[simp] theorem setSync_life (u : Half) : (setSync u s).life = s.life := rfl
@[simp] theorem setSync_params (u : Half) : (setSync u s).params = s.params := rfl

@[simp] theorem setOpt_cid (o : Opt) : (setOpt o s).cid = s.cid := rfl
@[simp] theorem setOpt_name (o : Opt) : (setOpt o s).name = s.name := rfl
@[simp] theorem setOpt_nameLen (o : Opt) : (setOpt o s).nameLen = s.nameLen := rfl
@[simp] theorem setOpt_prio (o : Opt) : (setOpt o s).prio = s.prio := rfl
@[simp] theorem setOpt_sync (o : Opt) : (setOpt o s).sync = s.sync := rfl
@[simp] theorem setOpt_opt (o : Opt) : (setOpt o s).opt = o := rfl
@[simp] theorem setOpt_univ (o : Opt) : (setOpt o s).univ = s.univ := rfl
@[simp] theorem setOpt_seq (o : Opt) : (setOpt o s).seq = s.seq := rfl
@[simp] theorem setOpt_result (o : Opt) : (setOpt o s).result = s.result := rfl
@[simp] theorem setOpt_cidSet (o : Opt) : (setOpt o s).cidSet = s.cidSet := rfl
@[simp] theorem setOpt_nameSet (o : Opt) : (setOpt o s).nameSet = s.nameSet := rfl
@[simp] theorem setOpt_univSet (o : Opt) : (setOpt o s).univSet = s.univSet := rfl
@[simp] theorem setOpt_phase (o : Opt) : (setOpt o s).phase = s.phase := rfl
@[simp] theorem setOpt_status (o : Opt) : (setOpt o s).status = s.status := rfl
@[simp] theorem setOpt_txValid (o : Opt) : (setOpt o s).txValid = s.txValid := rfl
@[simp] theorem setOpt_txLen (o : Opt) : (setOpt o s).txLen = s.txLen := rfl
@[simp] theorem setOpt_inMem (o : Opt) : (setOpt o s).inMem = s.inMem := rfl
@[simp] theorem setOpt_tx (o : Opt) : (setOpt o s).tx = s.tx := rfl
@[simp] theorem setOpt_txLog (o : Opt) : (setOpt o s).txLog = s.txLog := rfl
@[simp] theorem setOpt_inbox (o : Opt) : (setOpt o s).inbox = s.inbox := rfl
@[simp] theorem setOpt_replies (o : Opt) : (setOpt o s).replies = s.replies := rfl
@[simp] theorem setOpt_life (o : Opt) : (setOpt o s).life = s.life := rfl
@[simp] theorem setOpt_params (o : Opt) : (setOpt o s).params = s.params := rfl

@[simp] theorem setPhase_cid (p : Phase) : (setPhase p s).cid = s.cid := rfl
@[simp] theorem setPhase_name (p : Phase) : (setPhase p s).name = s.name := rfl
@[simp] theorem setPhase_nameLen (p : Phase) : (setPhase p s).nameLen = s.nameLen := rfl
@[simp] theorem setPhase_prio (p : Phase) : (setPhase p s).prio = s.prio := rfl
@[simp] theorem setPhase_sync (p : Phase) : (setPhase p s).sync = s.sync := rfl
@[simp] theorem setPhase_opt (p : Phase) : (setPhase p s).opt = s.opt := rfl
@[simp] theorem setPhase_univ (p : Phase) : (setPhase p s).univ = s.univ := rfl
@[simp] theorem setPhase_seq (p : Phase) : (setPhase p s).seq = s.seq := rfl
@[simp] theorem setPhase_result (p : Phase) : (setPhase p s).result = s.result := rfl
@[simp] theorem setPhase_cidSet (p : Phase) : (setPhase p s).cidSet = s.cidSet := rfl
@[simp] theorem setPhase_nameSet (p : Phase) : (setPhase p s).nameSet = s.nameSet := rfl
@[simp] theorem setPhase_univSet (p : Phase) : (setPhase p s).univSet = s.univSet := rfl
@[simp] theorem setPhase_phase (p : Phase) : (setPhase p s).phase = p := rfl
@[simp] theorem setPhase_status (p : Phase) : (setPhase p s).status = s.status := rfl
@[simp] theorem setPhase_txValid (p : Phase) : (setPhase p s).txValid = s.txValid := rfl
@[simp] theorem setPhase_txLen (p : Phase) : (setPhase p s).txLen = s.txLen := rfl
@[simp] theorem setPhase_inMem (p : Phase) : (setPhase p s).inMem = s.inMem := rfl
@[simp] theorem setPhase_tx (p : Phase) : (setPhase p s).tx = s.tx := rfl
@[simp] theorem setPhase_txLog (p : Phase) : (setPhase p s).txLog = s.txLog := rfl
@[simp] theorem setPhase_inbox (p : Phase) : (setPhase p s).inbox = s.inbox := rfl
@[simp] theorem setPhase_replies (p : Phase) : (setPhase p s).replies = s.replies := rfl
@[simp] theorem setPhase_life (p : Phase) : (setPhase p s).life = s.life := rfl
@[simp] theorem setPhase_params (p : Phase) : (setPhase p s).params = s.params := rfl

@[simp] theorem setSeq_cid (q : Byte) : (setSeq q s).cid = s.cid := rfl
@[simp] theorem setSeq_name (q : Byte) : (setSeq q s).name = s.name := rfl
@[simp] theorem setSeq_nameLen (q : Byte) : (setSeq q s).nameLen = s.nameLen := rfl
@[simp] theorem setSeq_prio (q : Byte) : (setSeq q s).prio = s.prio := rfl
@[simp] theorem setSeq_sync (q : Byte) : (setSeq q s).sync = s.sync := rfl
@[simp] theorem setSeq_opt (q : Byte) : (setSeq q s).opt = s.opt := rfl
@[simp] theorem setSeq_univ (q : Byte) : (setSeq q s).univ = s.univ := rfl
@[simp] theorem setSeq_seq (q : Byte) : (setSeq q s).seq = q := rfl
@[simp] theorem setSeq_result (q : Byte) : (setSeq q s).result = s.result := rfl
@[simp] theorem setSeq_cidSet (q : Byte) : (setSeq q s).cidSet = s.cidSet := rfl
@[simp] theorem setSeq_nameSet (q : Byte) : (setSeq q s).nameSet = s.nameSet := rfl
@[simp] theorem setSeq_univSet (q : Byte) : (setSeq q s).univSet = s.univSet := rfl
@[simp] theorem setSeq_phase (q : Byte) : (setSeq q s).phase = s.phase := rfl
@[simp] theorem setSeq_status (q : Byte) : (setSeq q s).status = s.status := rfl
@[simp] theorem setSeq_txValid (q : Byte) : (setSeq q s).txValid = s.txValid := rfl
@[simp] theorem setSeq_txLen (q : Byte) : (setSeq q s).txLen = s.txLen := rfl
@[simp] theorem setSeq_inMem (q : Byte) : (setSeq q s).inMem = s.inMem := rfl
@[simp] theorem setSeq_tx (q : Byte) : (setSeq q s).tx = s.tx := rfl
@[simp] theorem setSeq_txLog (q : Byte) : (setSeq q s).txLog = s.txLog := rfl
@[simp] theorem setSeq_inbox (q : Byte) : (setSeq q s).inbox = s.inbox := rfl
@[simp] theorem setSeq_replies (q : Byte) : (setSeq q s).replies = s.replies := rfl
@[simp] theorem setSeq_life (q : Byte) : (setSeq q s).life = s.life := rfl
@[simp] theorem setSeq_params (q : Byte) : (setSeq q s).params = s.params := rfl

@[simp] theorem setResult_cid (v : Word) : (setResult v s).cid = s.cid := rfl
@[simp] theorem setResult_name (v : Word) : (setResult v s).name = s.name := rfl
@[simp] theorem setResult_nameLen (v : Word) : (setResult v s).nameLen = s.nameLen := rfl
@[simp] theorem setResult_prio (v : Word) : (setResult v s).prio = s.prio := rfl
@[simp] theorem setResult_sync (v : Word) : (setResult v s).sync = s.sync := rfl
@[simp] theorem setResult_opt (v : Word) : (setResult v s).opt = s.opt := rfl
@[simp] theorem setResult_univ (v : Word) : (setResult v s).univ = s.univ := rfl
@[simp] theorem setResult_seq (v : Word) : (setResult v s).seq = s.seq := rfl
@[simp] theorem setResult_result (v : Word) : (setResult v s).result = v := rfl
@[simp] theorem setResult_cidSet (v : Word) : (setResult v s).cidSet = s.cidSet := rfl
@[simp] theorem setResult_nameSet (v : Word) : (setResult v s).nameSet = s.nameSet := rfl
@[simp] theorem setResult_univSet (v : Word) : (setResult v s).univSet = s.univSet := rfl
@[simp] theorem setResult_phase (v : Word) : (setResult v s).phase = s.phase := rfl
@[simp] theorem setResult_status (v : Word) : (setResult v s).status = s.status := rfl
@[simp] theorem setResult_txValid (v : Word) : (setResult v s).txValid = s.txValid := rfl
@[simp] theorem setResult_txLen (v : Word) : (setResult v s).txLen = s.txLen := rfl
@[simp] theorem setResult_inMem (v : Word) : (setResult v s).inMem = s.inMem := rfl
@[simp] theorem setResult_tx (v : Word) : (setResult v s).tx = s.tx := rfl
@[simp] theorem setResult_txLog (v : Word) : (setResult v s).txLog = s.txLog := rfl
@[simp] theorem setResult_inbox (v : Word) : (setResult v s).inbox = s.inbox := rfl
@[simp] theorem setResult_replies (v : Word) : (setResult v s).replies = s.replies := rfl
@[simp] theorem setResult_life (v : Word) : (setResult v s).life = s.life := rfl
@[simp] theorem setResult_params (v : Word) : (setResult v s).params = s.params := rfl

@[simp] theorem setTxInfo_cid (b : Bool) (n : BitVec 10) : (setTxInfo b n s).cid = s.cid := rfl
@[simp] theorem setTxInfo_name (b : Bool) (n : BitVec 10) : (setTxInfo b n s).name = s.name := rfl
@[simp] theorem setTxInfo_nameLen (b : Bool) (n : BitVec 10) : (setTxInfo b n s).nameLen = s.nameLen := rfl
@[simp] theorem setTxInfo_prio (b : Bool) (n : BitVec 10) : (setTxInfo b n s).prio = s.prio := rfl
@[simp] theorem setTxInfo_sync (b : Bool) (n : BitVec 10) : (setTxInfo b n s).sync = s.sync := rfl
@[simp] theorem setTxInfo_opt (b : Bool) (n : BitVec 10) : (setTxInfo b n s).opt = s.opt := rfl
@[simp] theorem setTxInfo_univ (b : Bool) (n : BitVec 10) : (setTxInfo b n s).univ = s.univ := rfl
@[simp] theorem setTxInfo_seq (b : Bool) (n : BitVec 10) : (setTxInfo b n s).seq = s.seq := rfl
@[simp] theorem setTxInfo_result (b : Bool) (n : BitVec 10) : (setTxInfo b n s).result = s.result := rfl
@[simp] theorem setTxInfo_cidSet (b : Bool) (n : BitVec 10) : (setTxInfo b n s).cidSet = s.cidSet := rfl
@[simp] theorem setTxInfo_nameSet (b : Bool) (n : BitVec 10) : (setTxInfo b n s).nameSet = s.nameSet := rfl
@[simp] theorem setTxInfo_univSet (b : Bool) (n : BitVec 10) : (setTxInfo b n s).univSet = s.univSet := rfl
@[simp] theorem setTxInfo_phase (b : Bool) (n : BitVec 10) : (setTxInfo b n s).phase = s.phase := rfl
@[simp] theorem setTxInfo_status (b : Bool) (n : BitVec 10) : (setTxInfo b n s).status = s.status := rfl
@[simp] theorem setTxInfo_txValid (b : Bool) (n : BitVec 10) : (setTxInfo b n s).txValid = b := rfl
@[simp] theorem setTxInfo_txLen (b : Bool) (n : BitVec 10) : (setTxInfo b n s).txLen = n := rfl
@[simp] theorem setTxInfo_inMem (b : Bool) (n : BitVec 10) : (setTxInfo b n s).inMem = s.inMem := rfl
@[simp] theorem setTxInfo_tx (b : Bool) (n : BitVec 10) : (setTxInfo b n s).tx = s.tx := rfl
@[simp] theorem setTxInfo_txLog (b : Bool) (n : BitVec 10) : (setTxInfo b n s).txLog = s.txLog := rfl
@[simp] theorem setTxInfo_inbox (b : Bool) (n : BitVec 10) : (setTxInfo b n s).inbox = s.inbox := rfl
@[simp] theorem setTxInfo_replies (b : Bool) (n : BitVec 10) : (setTxInfo b n s).replies = s.replies := rfl
@[simp] theorem setTxInfo_life (b : Bool) (n : BitVec 10) : (setTxInfo b n s).life = s.life := rfl
@[simp] theorem setTxInfo_params (b : Bool) (n : BitVec 10) : (setTxInfo b n s).params = s.params := rfl

@[simp] theorem setTx_cid (m : Memory) : (setTx m s).cid = s.cid := rfl
@[simp] theorem setTx_name (m : Memory) : (setTx m s).name = s.name := rfl
@[simp] theorem setTx_nameLen (m : Memory) : (setTx m s).nameLen = s.nameLen := rfl
@[simp] theorem setTx_prio (m : Memory) : (setTx m s).prio = s.prio := rfl
@[simp] theorem setTx_sync (m : Memory) : (setTx m s).sync = s.sync := rfl
@[simp] theorem setTx_opt (m : Memory) : (setTx m s).opt = s.opt := rfl
@[simp] theorem setTx_univ (m : Memory) : (setTx m s).univ = s.univ := rfl
@[simp] theorem setTx_seq (m : Memory) : (setTx m s).seq = s.seq := rfl
@[simp] theorem setTx_result (m : Memory) : (setTx m s).result = s.result := rfl
@[simp] theorem setTx_cidSet (m : Memory) : (setTx m s).cidSet = s.cidSet := rfl
@[simp] theorem setTx_nameSet (m : Memory) : (setTx m s).nameSet = s.nameSet := rfl
@[simp] theorem setTx_univSet (m : Memory) : (setTx m s).univSet = s.univSet := rfl
@[simp] theorem setTx_phase (m : Memory) : (setTx m s).phase = s.phase := rfl
@[simp] theorem setTx_status (m : Memory) : (setTx m s).status = s.status := rfl
@[simp] theorem setTx_txValid (m : Memory) : (setTx m s).txValid = s.txValid := rfl
@[simp] theorem setTx_txLen (m : Memory) : (setTx m s).txLen = s.txLen := rfl
@[simp] theorem setTx_inMem (m : Memory) : (setTx m s).inMem = s.inMem := rfl
@[simp] theorem setTx_tx (m : Memory) : (setTx m s).tx = m := rfl
@[simp] theorem setTx_txLog (m : Memory) : (setTx m s).txLog = s.txLog := rfl
@[simp] theorem setTx_inbox (m : Memory) : (setTx m s).inbox = s.inbox := rfl
@[simp] theorem setTx_replies (m : Memory) : (setTx m s).replies = s.replies := rfl
@[simp] theorem setTx_life (m : Memory) : (setTx m s).life = s.life := rfl
@[simp] theorem setTx_params (m : Memory) : (setTx m s).params = s.params := rfl

@[simp] theorem setIn_cid (m : Memory) : (setIn m s).cid = s.cid := rfl
@[simp] theorem setIn_name (m : Memory) : (setIn m s).name = s.name := rfl
@[simp] theorem setIn_nameLen (m : Memory) : (setIn m s).nameLen = s.nameLen := rfl
@[simp] theorem setIn_prio (m : Memory) : (setIn m s).prio = s.prio := rfl
@[simp] theorem setIn_sync (m : Memory) : (setIn m s).sync = s.sync := rfl
@[simp] theorem setIn_opt (m : Memory) : (setIn m s).opt = s.opt := rfl
@[simp] theorem setIn_univ (m : Memory) : (setIn m s).univ = s.univ := rfl
@[simp] theorem setIn_seq (m : Memory) : (setIn m s).seq = s.seq := rfl
@[simp] theorem setIn_result (m : Memory) : (setIn m s).result = s.result := rfl
@[simp] theorem setIn_cidSet (m : Memory) : (setIn m s).cidSet = s.cidSet := rfl
@[simp] theorem setIn_nameSet (m : Memory) : (setIn m s).nameSet = s.nameSet := rfl
@[simp] theorem setIn_univSet (m : Memory) : (setIn m s).univSet = s.univSet := rfl
@[simp] theorem setIn_phase (m : Memory) : (setIn m s).phase = s.phase := rfl
@[simp] theorem setIn_status (m : Memory) : (setIn m s).status = s.status := rfl
@[simp] theorem setIn_txValid (m : Memory) : (setIn m s).txValid = s.txValid := rfl
@[simp] theorem setIn_txLen (m : Memory) : (setIn m s).txLen = s.txLen := rfl
@[simp] theorem setIn_inMem (m : Memory) : (setIn m s).inMem = m := rfl
@[simp] theorem setIn_tx (m : Memory) : (setIn m s).tx = s.tx := rfl
@[simp] theorem setIn_txLog (m : Memory) : (setIn m s).txLog = s.txLog := rfl
@[simp] theorem setIn_inbox (m : Memory) : (setIn m s).inbox = s.inbox := rfl
@[simp] theorem setIn_replies (m : Memory) : (setIn m s).replies = s.replies := rfl
@[simp] theorem setIn_life (m : Memory) : (setIn m s).life = s.life := rfl
@[simp] theorem setIn_params (m : Memory) : (setIn m s).params = s.params := rfl

@[simp] theorem logDatagram_cid (d : Datagram) : (logDatagram d s).cid = s.cid := rfl
@[simp] theorem logDatagram_name (d : Datagram) : (logDatagram d s).name = s.name := rfl
@[simp] theorem logDatagram_nameLen (d : Datagram) : (logDatagram d s).nameLen = s.nameLen := rfl
@[simp] theorem logDatagram_prio (d : Datagram) : (logDatagram d s).prio = s.prio := rfl
@[simp] theorem logDatagram_sync (d : Datagram) : (logDatagram d s).sync = s.sync := rfl
@[simp] theorem logDatagram_opt (d : Datagram) : (logDatagram d s).opt = s.opt := rfl
@[simp] theorem logDatagram_univ (d : Datagram) : (logDatagram d s).univ = s.univ := rfl
@[simp] theorem logDatagram_seq (d : Datagram) : (logDatagram d s).seq = s.seq := rfl
@[simp] theorem logDatagram_result (d : Datagram) : (logDatagram d s).result = s.result := rfl
@[simp] theorem logDatagram_cidSet (d : Datagram) : (logDatagram d s).cidSet = s.cidSet := rfl
@[simp] theorem logDatagram_nameSet (d : Datagram) : (logDatagram d s).nameSet = s.nameSet := rfl
@[simp] theorem logDatagram_univSet (d : Datagram) : (logDatagram d s).univSet = s.univSet := rfl
@[simp] theorem logDatagram_phase (d : Datagram) : (logDatagram d s).phase = s.phase := rfl
@[simp] theorem logDatagram_status (d : Datagram) : (logDatagram d s).status = s.status := rfl
@[simp] theorem logDatagram_txValid (d : Datagram) : (logDatagram d s).txValid = s.txValid := rfl
@[simp] theorem logDatagram_txLen (d : Datagram) : (logDatagram d s).txLen = s.txLen := rfl
@[simp] theorem logDatagram_inMem (d : Datagram) : (logDatagram d s).inMem = s.inMem := rfl
@[simp] theorem logDatagram_tx (d : Datagram) : (logDatagram d s).tx = s.tx := rfl
@[simp] theorem logDatagram_txLog (d : Datagram) : (logDatagram d s).txLog = s.txLog ++ [d] := rfl
@[simp] theorem logDatagram_inbox (d : Datagram) : (logDatagram d s).inbox = s.inbox := rfl
@[simp] theorem logDatagram_replies (d : Datagram) : (logDatagram d s).replies = s.replies := rfl
@[simp] theorem logDatagram_life (d : Datagram) : (logDatagram d s).life = s.life := rfl
@[simp] theorem logDatagram_params (d : Datagram) : (logDatagram d s).params = s.params := rfl

@[simp] theorem setInbox_cid (acts : List HostAction) : (setInbox acts s).cid = s.cid := rfl
@[simp] theorem setInbox_name (acts : List HostAction) : (setInbox acts s).name = s.name := rfl
@[simp] theorem setInbox_nameLen (acts : List HostAction) : (setInbox acts s).nameLen = s.nameLen := rfl
@[simp] theorem setInbox_prio (acts : List HostAction) : (setInbox acts s).prio = s.prio := rfl
@[simp] theorem setInbox_sync (acts : List HostAction) : (setInbox acts s).sync = s.sync := rfl
@[simp] theorem setInbox_opt (acts : List HostAction) : (setInbox acts s).opt = s.opt := rfl
@[simp] theorem setInbox_univ (acts : List HostAction) : (setInbox acts s).univ = s.univ := rfl
@[simp] theorem setInbox_seq (acts : List HostAction) : (setInbox acts s).seq = s.seq := rfl
@[simp] theorem setInbox_result (acts : List HostAction) : (setInbox acts s).result = s.result := rfl
@[simp] theorem setInbox_cidSet (acts : List HostAction) : (setInbox acts s).cidSet = s.cidSet := rfl
@[simp] theorem setInbox_nameSet (acts : List HostAction) : (setInbox acts s).nameSet = s.nameSet := rfl
@[simp] theorem setInbox_univSet (acts : List HostAction) : (setInbox acts s).univSet = s.univSet := rfl
@[simp] theorem setInbox_phase (acts : List HostAction) : (setInbox acts s).phase = s.phase := rfl
@[simp] theorem setInbox_status (acts : List HostAction) : (setInbox acts s).status = s.status := rfl
@[simp] theorem setInbox_txValid (acts : List HostAction) : (setInbox acts s).txValid = s.txValid := rfl
@[simp] theorem setInbox_txLen (acts : List HostAction) : (setInbox acts s).txLen = s.txLen := rfl
@[simp] theorem setInbox_inMem (acts : List HostAction) : (setInbox acts s).inMem = s.inMem := rfl
@[simp] theorem setInbox_tx (acts : List HostAction) : (setInbox acts s).tx = s.tx := rfl
@[simp] theorem setInbox_txLog (acts : List HostAction) : (setInbox acts s).txLog = s.txLog := rfl
@[simp] theorem setInbox_inbox (acts : List HostAction) : (setInbox acts s).inbox = acts := rfl
@[simp] theorem setInbox_replies (acts : List HostAction) : (setInbox acts s).replies = s.replies := rfl
@[simp] theorem setInbox_life (acts : List HostAction) : (setInbox acts s).life = s.life := rfl
@[simp] theorem setInbox_params (acts : List HostAction) : (setInbox acts s).params = s.params := rfl

@[simp] theorem reply_cid (r : Reply) : (reply r s).cid = s.cid := rfl
@[simp] theorem reply_name (r : Reply) : (reply r s).name = s.name := rfl
@[simp] theorem reply_nameLen (r : Reply) : (reply r s).nameLen = s.nameLen := rfl
@[simp] theorem reply_prio (r : Reply) : (reply r s).prio = s.prio := rfl
@[simp] theorem reply_sync (r : Reply) : (reply r s).sync = s.sync := rfl
@[simp] theorem reply_opt (r : Reply) : (reply r s).opt = s.opt := rfl
@[simp] theorem reply_univ (r : Reply) : (reply r s).univ = s.univ := rfl
@[simp] theorem reply_seq (r : Reply) : (reply r s).seq = s.seq := rfl
@[simp] theorem reply_result (r : Reply) : (reply r s).result = s.result := rfl
@[simp] theorem reply_cidSet (r : Reply) : (reply r s).cidSet = s.cidSet := rfl
@[simp] theorem reply_nameSet (r : Reply) : (reply r s).nameSet = s.nameSet := rfl
@[simp] theorem reply_univSet (r : Reply) : (reply r s).univSet = s.univSet := rfl
@[simp] theorem reply_phase (r : Reply) : (reply r s).phase = s.phase := rfl
@[simp] theorem reply_status (r : Reply) : (reply r s).status = s.status := rfl
@[simp] theorem reply_txValid (r : Reply) : (reply r s).txValid = s.txValid := rfl
@[simp] theorem reply_txLen (r : Reply) : (reply r s).txLen = s.txLen := rfl
@[simp] theorem reply_inMem (r : Reply) : (reply r s).inMem = s.inMem := rfl
@[simp] theorem reply_tx (r : Reply) : (reply r s).tx = s.tx := rfl
@[simp] theorem reply_txLog (r : Reply) : (reply r s).txLog = s.txLog := rfl
@[simp] theorem reply_inbox (r : Reply) : (reply r s).inbox = s.inbox := rfl
@[simp] theorem reply_replies (r : Reply) : (reply r s).replies = s.replies ++ [r] := rfl
@[simp] theorem reply_life (r : Reply) : (reply r s).life = s.life := rfl
@[simp] theorem reply_params (r : Reply) : (reply r s).params = s.params := rfl

@[simp] theorem memWriteBytes_cid (a : Nat) (bs : List Byte) : (memWriteBytes a bs s).cid = s.cid := rfl
@[simp] theorem memWriteBytes_name (a : Nat) (bs : List Byte) : (memWriteBytes a bs s).name = s.name := rfl
@[simp] theorem memWriteBytes_nameLen (a : Nat) (bs : List Byte) : (memWriteBytes a bs s).nameLen = s.nameLen := rfl
@[simp] theorem memWriteBytes_prio (a : Nat) (bs : List Byte) : (memWriteBytes a bs s).prio = s.prio := rfl
@[simp] theorem memWriteBytes_sync (a : Nat) (bs : List Byte) : (memWriteBytes a bs s).sync = s.sync := rfl
@[simp] theorem memWriteBytes_opt (a : Nat) (bs : List Byte) : (memWriteBytes a bs s).opt = s.opt := rfl
@[simp] theorem memWriteBytes_univ (a : Nat) (bs : List Byte) : (memWriteBytes a bs s).univ = s.univ := rfl
@[simp] theorem memWriteBytes_seq (a : Nat) (bs : List Byte) : (memWriteBytes a bs s).seq = s.seq := rfl
@[simp] theorem memWriteBytes_result (a : Nat) (bs : List Byte) : (memWriteBytes a bs s).result = s.result := rfl
@[simp] theorem memWriteBytes_cidSet (a : Nat) (bs : List Byte) : (memWriteBytes a bs s).cidSet = s.cidSet := rfl
@[simp] theorem memWriteBytes_nameSet (a : Nat) (bs : List Byte) : (memWriteBytes a bs s).nameSet = s.nameSet := rfl
@[simp] theorem memWriteBytes_univSet (a : Nat) (bs : List Byte) : (memWriteBytes a bs s).univSet = s.univSet := rfl
@[simp] theorem memWriteBytes_phase (a : Nat) (bs : List Byte) : (memWriteBytes a bs s).phase = s.phase := rfl
@[simp] theorem memWriteBytes_status (a : Nat) (bs : List Byte) : (memWriteBytes a bs s).status = s.status := rfl
@[simp] theorem memWriteBytes_txValid (a : Nat) (bs : List Byte) : (memWriteBytes a bs s).txValid = s.txValid := rfl
@[simp] theorem memWriteBytes_txLen (a : Nat) (bs : List Byte) : (memWriteBytes a bs s).txLen = s.txLen := rfl
@[simp] theorem memWriteBytes_inMem (a : Nat) (bs : List Byte) : (memWriteBytes a bs s).inMem = s.inMem := rfl
@[simp] theorem memWriteBytes_tx (a : Nat) (bs : List Byte) : (memWriteBytes a bs s).tx = s.tx.writeBytes a bs := rfl
@[simp] theorem memWriteBytes_txLog (a : Nat) (bs : List Byte) : (memWriteBytes a bs s).txLog = s.txLog := rfl
@[simp] theorem memWriteBytes_inbox (a : Nat) (bs : List Byte) : (memWriteBytes a bs s).inbox = s.inbox := rfl
@[simp] theorem memWriteBytes_replies (a : Nat) (bs : List Byte) : (memWriteBytes a bs s).replies = s.replies := rfl
@[simp] theorem memWriteBytes_life (a : Nat) (bs : List Byte) : (memWriteBytes a bs s).life = s.life := rfl
@[simp] theorem memWriteBytes_params (a : Nat) (bs : List Byte) : (memWriteBytes a bs s).params = s.params := rfl

@[simp] theorem memWrite_cid (a n : Nat) {w : Nat} (v : BitVec w) : (memWrite a n v s).cid = s.cid := rfl
@[simp] theorem memWrite_name (a n : Nat) {w : Nat} (v : BitVec w) : (memWrite a n v s).name = s.name := rfl
@[simp] theorem memWrite_nameLen (a n : Nat) {w : Nat} (v : BitVec w) : (memWrite a n v s).nameLen = s.nameLen := rfl
@[simp] theorem memWrite_prio (a n : Nat) {w : Nat} (v : BitVec w) : (memWrite a n v s).prio = s.prio := rfl
@[simp] theorem memWrite_sync (a n : Nat) {w : Nat} (v : BitVec w) : (memWrite a n v s).sync = s.sync := rfl
@[simp] theorem memWrite_opt (a n : Nat) {w : Nat} (v : BitVec w) : (memWrite a n v s).opt = s.opt := rfl
@[simp] theorem memWrite_univ (a n : Nat) {w : Nat} (v : BitVec w) : (memWrite a n v s).univ = s.univ := rfl
@[simp] theorem memWrite_seq (a n : Nat) {w : Nat} (v : BitVec w) : (memWrite a n v s).seq = s.seq := rfl
@[simp] theorem memWrite_result (a n : Nat) {w : Nat} (v : BitVec w) : (memWrite a n v s).result = s.result := rfl
@[simp] theorem memWrite_cidSet (a n : Nat) {w : Nat} (v : BitVec w) : (memWrite a n v s).cidSet = s.cidSet := rfl
@[simp] theorem memWrite_nameSet (a n : Nat) {w : Nat} (v : BitVec w) : (memWrite a n v s).nameSet = s.nameSet := rfl
@[simp] theorem memWrite_univSet (a n : Nat) {w : Nat} (v : BitVec w) : (memWrite a n v s).univSet = s.univSet := rfl
@[simp] theorem memWrite_phase (a n : Nat) {w : Nat} (v : BitVec w) : (memWrite a n v s).phase = s.phase := rfl
@[simp] theorem memWrite_status (a n : Nat) {w : Nat} (v : BitVec w) : (memWrite a n v s).status = s.status := rfl
@[simp] theorem memWrite_txValid (a n : Nat) {w : Nat} (v : BitVec w) : (memWrite a n v s).txValid = s.txValid := rfl
@[simp] theorem memWrite_txLen (a n : Nat) {w : Nat} (v : BitVec w) : (memWrite a n v s).txLen = s.txLen := rfl
@[simp] theorem memWrite_inMem (a n : Nat) {w : Nat} (v : BitVec w) : (memWrite a n v s).inMem = s.inMem := rfl
@[simp] theorem memWrite_tx (a n : Nat) {w : Nat} (v : BitVec w) : (memWrite a n v s).tx = s.tx.writeBytes a (be n v) := rfl
@[simp] theorem memWrite_txLog (a n : Nat) {w : Nat} (v : BitVec w) : (memWrite a n v s).txLog = s.txLog := rfl
@[simp] theorem memWrite_inbox (a n : Nat) {w : Nat} (v : BitVec w) : (memWrite a n v s).inbox = s.inbox := rfl
@[simp] theorem memWrite_replies (a n : Nat) {w : Nat} (v : BitVec w) : (memWrite a n v s).replies = s.replies := rfl
@[simp] theorem memWrite_life (a n : Nat) {w : Nat} (v : BitVec w) : (memWrite a n v s).life = s.life := rfl
@[simp] theorem memWrite_params (a n : Nat) {w : Nat} (v : BitVec w) : (memWrite a n v s).params = s.params := rfl

end Sys2Proof.Machine
end

