-- ==== Sys2Proof/Laws/Ops.lean ====
section
/-! SUPPORT. One spec lemma per shared operation: everything it can do, so that a proof cites the lemma
and does not unfold the operation. -/

namespace Sys2Proof.Machine

/-! ## Big-endian bytes -/

@[simp] theorem be_length (n : Nat) {w : Nat} (v : BitVec w) : (be n v).length = n := by
  simp [be]

theorem be_one (v : Byte) : be 1 v = [v] := by
  simp [be, List.range_succ]

theorem be_two (v : Half) : be 2 v = [v.extractLsb' 8 8, v.extractLsb' 0 8] := by
  simp [be, List.range_succ]

theorem be_four (v : Word) :
    be 4 v = [v.extractLsb' 24 8, v.extractLsb' 16 8, v.extractLsb' 8 8, v.extractLsb' 0 8] := by
  simp [be, List.range_succ]

/-! ## Reading the input memory -/

@[simp] theorem memRead_length (s : State) (a n : Nat) : (memRead s a n).length = n := by
  simp [memRead]

theorem memRead_getElem? (s : State) (a n i : Nat) :
    (memRead s a n)[i]? = if i < n then some (inByte s (a + i)) else none := by
  simp only [memRead, List.getElem?_map]
  split <;> rename_i h <;> simp [h]

/-- `MemRead` of a shorter run is the start of a longer one. -/
theorem memRead_take (s : State) (a : Nat) {m n : Nat} (h : m ≤ n) :
    (memRead s a n).take m = memRead s a m := by
  rw [memRead, ← List.map_take, List.take_range, Nat.min_eq_left h, memRead]

/-- What the input memory reads as depends on `IN` and the sender instance only. -/
theorem inByte_congr {s t : State} (hm : t.inMem = s.inMem) (hl : t.life = s.life) (a : Nat) :
    inByte t a = inByte s a := by
  simp [inByte, hm, hl]

theorem memRead_congr {s t : State} (hm : t.inMem = s.inMem) (hl : t.life = s.life) (a n : Nat) :
    memRead t a n = memRead s a n := by
  simp [memRead, inByte_congr hm hl]

/-! ## Byte sequences as registers -/

@[simp] theorem toBytes_toList (n : Nat) (bs : List Byte) :
    (toBytes n bs).toList = (bs ++ zeros n).take n := rfl

theorem toBytes_toList_of_length {n : Nat} {bs : List Byte} (h : bs.length = n) :
    (toBytes n bs).toList = bs := by
  simp [← h]

/-! ## How a command ends -/

theorem succeed_eq (s : State) : succeed s = .next (setStatus .ok s) := rfl

/-- `raise` by a command that frames no packet, or by a word that is no command. -/
theorem raise_of_not_framesPacket {cmd : Option Instr} (h : cmd.any Instr.framesPacket = false)
    (e : Status) (s : State) : raise cmd e s = .next (setStatus e s) := by
  simp [raise, h]

/-- `raise` by `FRAME` or `SEND`: the packet is withdrawn too. -/
theorem raise_of_framesPacket {cmd : Option Instr} (h : cmd.any Instr.framesPacket = true)
    (e : Status) (s : State) : raise cmd e s = .next (setStatus e (setTxInfo false 0#10 s)) := by
  simp [raise, h]

theorem requirePhase_of_eq {p : Phase} {s : State} (h : s.phase = p) (cmd : Instr)
    (rest : Host.Outcome State Fault Refusal) : requirePhase p cmd s rest = rest :=
  if_pos h

theorem requirePhase_of_ne {p : Phase} {s : State} (h : s.phase ≠ p) (cmd : Instr)
    (rest : Host.Outcome State Fault Refusal) :
    requirePhase p cmd s rest = raise (some cmd) .errPhase s :=
  if_neg h

/-! ## The truncation scan -/

/-- The scan stops at or below its start, and everything it stepped over is a continuation byte. -/
theorem scanBack_spec (s : List Byte) (k : Nat) :
    scanBack s k ≤ k ∧
    (scanBack s k = 0 ∨ isContinuation (s.getD (scanBack s k) 0x00#8) = false) ∧
    ∀ j, scanBack s k < j → j ≤ k → isContinuation (s.getD j 0x00#8) = true := by
  induction k with
  | zero => exact ⟨Nat.le_refl 0, .inl rfl, fun j h1 h2 => by simp [scanBack] at h1; omega⟩
  | succ k ih =>
    simp only [scanBack]
    split
    · rename_i h
      refine ⟨by omega, ih.2.1, fun j h1 h2 => ?_⟩
      rcases Nat.lt_or_ge k j with hj | hj
      · have : j = k + 1 := by omega
        exact this ▸ h
      · exact ih.2.2 j h1 hj
    · rename_i h
      exact ⟨Nat.le_refl _, .inr (by simpa using h), fun j h1 h2 => by omega⟩

/-- The scan looks only at bytes up to its start. -/
theorem scanBack_congr {s t : List Byte} {k : Nat}
    (h : ∀ j, j ≤ k → s.getD j 0x00#8 = t.getD j 0x00#8) : scanBack s k = scanBack t k := by
  induction k with
  | zero => rfl
  | succ k ih => simp only [scanBack, h (k + 1) (Nat.le_refl _), ih fun j hj => h j (by omega)]

theorem trunc63_length_le (s : List Byte) : (trunc63 s).length ≤ 63 := by
  unfold trunc63
  split
  · assumption
  · have := (scanBack_spec s Config.nameMax).1
    simp only [List.length_take, Config.nameMax] at *
    omega

/-! ## The layer encoders write `TX` and nothing else: each one as its run of writes -/

theorem memWriteBytes_eq (a : Nat) (bs : List Byte) (s : State) :
    memWriteBytes a bs s = setTx (s.tx.writeBytes a bs) s := rfl

theorem memWrite_eq (a n : Nat) {w : Nat} (v : BitVec w) (s : State) :
    memWrite a n v s = setTx (s.tx.writeBytes a (be n v)) s := rfl

@[simp] theorem setTx_setTx (m m' : Memory) (s : State) : setTx m (setTx m' s) = setTx m s := rfl

/-- What `WRROOT` makes of the output memory. -/
theorem wrRoot_eq (total : Half) (s : State) :
    wrRoot total s = setTx
      ((((((s.tx.writeBytes 0 (be 2 Config.preambleSize)).writeBytes 2 (be 2 Config.postambleSize)).writeBytes
        4 Config.acnPid).writeBytes 18 (be 4 Config.rootVector)).writeBytes 22 s.cid.toList).writeBytes
        16 (be 2 (packfl (total - Config.rootLenAdj) Config.flags))) s := by
  simp [wrRoot, memWrite_eq, memWriteBytes_eq]

/-- What `WRFRAME` makes of the output memory. -/
theorem wrFrame_eq (total : Half) (seq : Byte) (s : State) :
    wrFrame total seq s = setTx
      ((((((((s.tx.writeBytes 38 (be 2 (packfl (total - s.params.frameLenAdj.value) Config.flags))).writeBytes
        40 (be 4 Config.framingVector)).writeBytes 44 s.name.toList).writeBytes 108 (be 1 s.prio)).writeBytes
        109 (be 2 s.sync)).writeBytes 111 (be 1 seq)).writeBytes 112 (be 1 (optByte s.opt))).writeBytes
        113 (be 2 s.univ)) s := by
  simp [wrFrame, memWrite_eq, memWriteBytes_eq]

/-- What `WRDMP` makes of the output memory. -/
theorem wrDmp_eq (total : Half) (dmx : List Byte) (s : State) :
    wrDmp total dmx s = setTx
      ((((((((s.tx.writeBytes 115 (be 2 (packfl (total - Config.dmpLenAdj) Config.flags))).writeBytes
        117 (be 1 Config.dmpVector)).writeBytes 118 (be 1 Config.dmpAddrType)).writeBytes
        119 (be 2 Config.dmpFirstAddr)).writeBytes 121 (be 2 Config.dmpAddrInc)).writeBytes
        123 (be 2 (BitVec.ofNat 16 (1 + dmx.length)))).writeBytes 125 (be 1 Config.startCode)).writeBytes
        Config.headerSize dmx) s := by
  simp [wrDmp, memWrite_eq, memWriteBytes_eq]

theorem wrRoot_frame (total : Half) (s : State) : wrRoot total s = setTx (wrRoot total s).tx s := by
  simp only [wrRoot_eq, setTx_tx]

theorem wrFrame_frame (total : Half) (seq : Byte) (s : State) :
    wrFrame total seq s = setTx (wrFrame total seq s).tx s := by
  simp only [wrFrame_eq, setTx_tx]

theorem wrDmp_frame (total : Half) (dmx : List Byte) (s : State) :
    wrDmp total dmx s = setTx (wrDmp total dmx s).tx s := by
  simp only [wrDmp_eq, setTx_tx]

/-- `ASSEMBLE` changes `TX`, `TXVALID` and `TXLEN` and nothing else. -/
theorem assemble_frame (dmx : List Byte) (seq : Byte) (s : State) :
    assemble dmx seq s =
      setTxInfo true ((totalLength dmx.length).setWidth 10) (setTx (assemble dmx seq s).tx s) := by
  simp only [assemble, wrRoot_eq, wrFrame_eq, wrDmp_eq, setTx_setTx, setTx_tx, setTxInfo_tx]

/-- The bytes `ASSEMBLE` leaves in `TX` come from the six configuration registers, `FRAME_LEN_ADJ`, the
channel data and the sequence number only (45_assembler.md R84). -/
theorem assemble_tx_congr {s t : State} (dmx : List Byte) (seq : Byte) (hcid : s.cid = t.cid)
    (hname : s.name = t.name) (hprio : s.prio = t.prio) (hsync : s.sync = t.sync) (hopt : s.opt = t.opt)
    (huniv : s.univ = t.univ) (hadj : s.params.frameLenAdj = t.params.frameLenAdj) :
    (assemble dmx seq s).tx = (assemble dmx seq t).tx := by
  simp only [assemble, wrRoot_eq, wrFrame_eq, wrDmp_eq, setTx_tx, setTxInfo_tx, setTx_cid, setTx_name,
    setTx_prio, setTx_sync, setTx_opt, setTx_univ, hcid, hname, hprio, hsync, hopt, huniv, setTx_params, hadj]

/-! ## The total length -/

theorem totalLength_toNat {n : Nat} (h : n ≤ 512) : (totalLength n).toNat = 126 + n := by
  simp [totalLength, Config.rootSize, Config.framingSize, Config.dmpFixedSize]
  omega

end Sys2Proof.Machine
end

