-- ==== Sys2Proof/Laws/Step.lean ====
section
/-! SUPPORT. What a command, a command word and a step can do, said once: each lemma lists every case,
so that a proof about all steps cites it and unfolds nothing. -/

namespace Sys2Proof.Machine

/-- The state `raise` leaves. -/
theorem raise_eq (cmd : Option Instr) (e : Status) (s : State) :
    raise cmd e s =
      .next (setStatus e (if cmd.any Instr.framesPacket then setTxInfo false 0#10 s else s)) := rfl

/-- A command guarded by a phase: either the phase is right and the rest ran, or the command raised
`ERR_PHASE`. -/
theorem requirePhase_cases {p : Phase} {cmd : Instr} {s : State}
    {rest o : Host.Outcome State Fault Refusal} (h : requirePhase p cmd s rest = o) :
    (s.phase = p ∧ rest = o) ∨ (s.phase ≠ p ∧ raise (some cmd) .errPhase s = o) := by
  unfold requirePhase at h
  split at h
  · exact .inl ⟨‹_›, h⟩
  · exact .inr ⟨‹_›, h⟩

/-- What a command that completes without an error makes of the state, but for `STATUS`; one line per
command. -/
inductive Effect (s : State) : Instr → State → Prop
  | ldcid : s.phase = .config → Effect s .ldcid (setCid (cidOperand s) s)
  | ldname (len : Half) : s.phase = .config → len.toNat ≤ s.params.inSize →
      Effect s (.ldname len)
        (setName (toBytes 64 ((memRead s 0 (min len.toNat 64)).take
            (keptLength len (memRead s 0 (min len.toNat 64)))
          ++ zeros (64 - keptLength len (memRead s 0 (min len.toNat 64)))))
          (BitVec.ofNat 6 (keptLength len (memRead s 0 (min len.toNat 64)))) s)
  | setuniv (u : Half) : s.phase = .config → Effect s (.setuniv u) (setUniv u s)
  | setprio (p : Byte) : s.phase = .config → Effect s (.setprio p) (setPrio p s)
  | setsync (sync : Half) : s.phase = .config → Effect s (.setsync sync) (setSync sync s)
  | setopt (mask : Byte) : s.phase = .config → Effect s (.setopt mask) (setOpt (optOperand mask) s)
  | commit : s.phase = .config → configured s = true → Effect s .commit (setPhase .ready s)
  | nextseq : s.phase = .ready →
      Effect s .nextseq (setResult ((s.seq + 1#8).setWidth 32) (setSeq (s.seq + 1#8) s))
  | frame (seq : Byte) (n : Half) : s.phase = .ready → n.toNat ≤ 512 →
      Effect s (.frame seq n) (assemble (channelData s n) seq s)
  | send (n : Half) : s.phase = .ready → n.toNat ≤ 512 →
      Effect s (.send n)
        (handOver (assemble (channelData s n) (s.seq + 1#8) (setSeq (s.seq + 1#8) s)))
  | mcaddr (u : Half) : Effect s (.mcaddr u) (setResult (mcast u) s)
  | packfl (flags : Byte) (len : Half) :
      Effect s (.packfl flags len) (setResult ((packfl len flags).setWidth 32) s)

/-- The three errors a decoded command can end with, and when (60_exceptions.md R100). -/
inductive Raises (s : State) : Instr → Status → Prop
  | phaseConfig (i : Instr) : s.phase = .ready →
      i = .ldcid ∨ (∃ len, i = .ldname len) ∨ (∃ u, i = .setuniv u) ∨ (∃ p, i = .setprio p) ∨
        (∃ v, i = .setsync v) ∨ (∃ m, i = .setopt m) ∨ i = .commit → Raises s i .errPhase
  | phaseReady (i : Instr) : s.phase = .config →
      i = .nextseq ∨ (∃ q n, i = .frame q n) ∨ (∃ n, i = .send n) → Raises s i .errPhase
  | unconf : s.phase = .config → configured s = false → Raises s .commit .errUnconf
  | lenFrame (seq : Byte) (n : Half) : s.phase = .ready → 512 < n.toNat →
      Raises s (.frame seq n) .errLen
  | lenSend (n : Half) : s.phase = .ready → 512 < n.toNat → Raises s (.send n) .errLen
  | namelen (len : Half) : s.phase = .config → s.params.inSize < len.toNat → Raises s (.ldname len) .errNamelen

/-- Every command completes: with its effect and `OK`, or with an error status. -/
theorem exec_cases (i : Instr) (s : State) :
    (∃ u, Effect s i u ∧ exec i s = .next (setStatus .ok u)) ∨
    (∃ e, Raises s i e ∧ exec i s = raise (some i) e s) := by
  have neReady : s.phase ≠ .config → s.phase = .ready := by cases s.phase <;> simp
  have neConfig : s.phase ≠ .ready → s.phase = .config := by cases s.phase <;> simp
  cases i with
  | ldcid =>
    rcases requirePhase_cases (rfl : exec .ldcid s = _) with ⟨hp, h⟩ | ⟨hp, h⟩
    · exact .inl ⟨_, .ldcid hp, h.symm⟩
    · exact .inr ⟨_, .phaseConfig _ (neReady hp) (by simp), h.symm⟩
  | ldname len =>
    rcases requirePhase_cases (rfl : exec (.ldname len) s = _) with ⟨hp, h⟩ | ⟨hp, h⟩
    · split at h
      · exact .inr ⟨_, .namelen len hp ‹_›, h.symm⟩
      · exact .inl ⟨_, .ldname len hp (Nat.le_of_not_lt ‹_›), h.symm⟩
    · exact .inr ⟨_, .phaseConfig _ (neReady hp) (by simp), h.symm⟩
  | setuniv u =>
    rcases requirePhase_cases (rfl : exec (.setuniv u) s = _) with ⟨hp, h⟩ | ⟨hp, h⟩
    · exact .inl ⟨_, .setuniv u hp, h.symm⟩
    · exact .inr ⟨_, .phaseConfig _ (neReady hp) (by simp), h.symm⟩
  | setprio p =>
    rcases requirePhase_cases (rfl : exec (.setprio p) s = _) with ⟨hp, h⟩ | ⟨hp, h⟩
    · exact .inl ⟨_, .setprio p hp, h.symm⟩
    · exact .inr ⟨_, .phaseConfig _ (neReady hp) (by simp), h.symm⟩
  | setsync sync =>
    rcases requirePhase_cases (rfl : exec (.setsync sync) s = _) with ⟨hp, h⟩ | ⟨hp, h⟩
    · exact .inl ⟨_, .setsync sync hp, h.symm⟩
    · exact .inr ⟨_, .phaseConfig _ (neReady hp) (by simp), h.symm⟩
  | setopt mask =>
    rcases requirePhase_cases (rfl : exec (.setopt mask) s = _) with ⟨hp, h⟩ | ⟨hp, h⟩
    · exact .inl ⟨_, .setopt mask hp, h.symm⟩
    · exact .inr ⟨_, .phaseConfig _ (neReady hp) (by simp), h.symm⟩
  | commit =>
    rcases requirePhase_cases (rfl : exec .commit s = _) with ⟨hp, h⟩ | ⟨hp, h⟩
    · split at h
      · exact .inl ⟨_, .commit hp ‹_›, h.symm⟩
      · rename_i hc
        exact .inr ⟨_, .unconf hp (by simpa using hc), h.symm⟩
    · exact .inr ⟨_, .phaseConfig _ (neReady hp) (by simp), h.symm⟩
  | nextseq =>
    rcases requirePhase_cases (rfl : exec .nextseq s = _) with ⟨hp, h⟩ | ⟨hp, h⟩
    · exact .inl ⟨_, .nextseq hp, h.symm⟩
    · exact .inr ⟨_, .phaseReady _ (neConfig hp) (by simp), h.symm⟩
  | frame seq n =>
    rcases requirePhase_cases (rfl : exec (.frame seq n) s = _) with ⟨hp, h⟩ | ⟨hp, h⟩
    · split at h
      · exact .inr ⟨_, .lenFrame seq n hp ‹_›, h.symm⟩
      · exact .inl ⟨_, .frame seq n hp (Nat.le_of_not_lt ‹_›), h.symm⟩
    · exact .inr ⟨_, .phaseReady _ (neConfig hp) (by simp), h.symm⟩
  | send n =>
    rcases requirePhase_cases (rfl : exec (.send n) s = _) with ⟨hp, h⟩ | ⟨hp, h⟩
    · split at h
      · exact .inr ⟨_, .lenSend n hp ‹_›, h.symm⟩
      · exact .inl ⟨_, .send n hp (Nat.le_of_not_lt ‹_›), h.symm⟩
    · exact .inr ⟨_, .phaseReady _ (neConfig hp) (by simp), h.symm⟩
  | mcaddr u => exact .inl ⟨_, .mcaddr u, rfl⟩
  | packfl flags len => exact .inl ⟨_, .packfl flags len, rfl⟩

/-- A command word: decoded and run, or `ERR_ILLEGAL`. -/
theorem runWord_cases (w : Word) (s : State) :
    (∃ i, decode w = .ok i ∧ runWord w s = exec i s) ∨
    (∃ e, decode w = .error e ∧ runWord w s = .next (setStatus .errIllegal s)) := by
  unfold runWord
  cases h : decode w with
  | ok i => exact .inl ⟨i, rfl, rfl⟩
  | error e => exact .inr ⟨e, rfl, rfl⟩

/-- Every command word completes. -/
theorem runWord_next (w : Word) (s : State) : ∃ u, runWord w s = .next u := by
  rcases runWord_cases w s with ⟨i, -, h⟩ | ⟨e, -, h⟩
  · rcases exec_cases i s with ⟨u, -, hu⟩ | ⟨e, -, he⟩
    · exact ⟨_, h.trans hu⟩
    · exact ⟨_, h.trans (he.trans (raise_eq ..))⟩
  · exact ⟨_, h⟩

/-- Everything a step that goes on can be: idle, or one host action. -/
theorem step_cases {s t : State} (h : step s = .next t) :
    (s.inbox = [] ∧ t = s) ∨
    (∃ later, s.inbox = .reset :: later ∧ t = resetBlock (setInbox later s)) ∨
    (∃ a b later, s.inbox = .writeIN a b :: later ∧ a < s.params.inSize ∧
      t = setIn (s.inMem.write a b) (setInbox later s)) ∨
    (∃ a later, s.inbox = .readTX a :: later ∧ a < 638 ∧
      t = reply (.byte (hostReadTX s.replies.length s a)) (setInbox later s)) ∨
    (∃ r later, s.inbox = .readReg r :: later ∧
      t = reply (.reg (hostReadReg s r)) (setInbox later s)) ∨
    (∃ w later u, s.inbox = .command w :: later ∧ runWord w (setInbox later s) = .next u ∧
      t = reply (.status u.status) u) := by
  unfold step hostStep at h
  split at h
  · rename_i hin
    cases h
    exact .inl ⟨hin, rfl⟩
  · rename_i act later hin
    refine .inr ?_
    cases act with
    | reset =>
      cases h
      exact .inl ⟨later, hin, rfl⟩
    | writeIN a b =>
      simp only [takeAction] at h
      split at h
      · cases h
        exact .inr (.inl ⟨a, b, later, hin, ‹_›, rfl⟩)
      · cases h
    | readTX a =>
      simp only [takeAction] at h
      split at h
      · cases h
        exact .inr (.inr (.inl ⟨a, later, hin, ‹_›, rfl⟩))
      · cases h
    | readReg r =>
      cases h
      refine .inr (.inr (.inr (.inl ⟨r, later, hin, ?_⟩)))
      cases r <;> rfl
    | command w =>
      obtain ⟨u, hu⟩ := runWord_next w (setInbox later s)
      simp only [takeAction, hu, answerStatus] at h
      cases h
      exact .inr (.inr (.inr (.inr ⟨w, later, u, hin, hu, rfl⟩)))

end Sys2Proof.Machine
end

