-- ==== Sys2Proof/Laws/Layers.lean ====
section
/-! SUPPORT. The layers as byte sequences: their lengths, that they do not depend on `TX`, and the two
encoders that write from their first byte to their last as one run each. -/

namespace Sys2Proof.Safety

open Sys2Proof.Machine

/-! ## Lengths -/

theorem acnPid_length : Config.acnPid.length = 12 := rfl

@[simp] theorem flagsAndLength_length (length : Nat) : (flagsAndLength length).length = 2 := be_length ..

/-- R68: the root layer has 38 bytes. -/
@[simp] theorem rootLayer_length (s : State) (total : Nat) : (rootLayer s total).length = 38 := by
  simp [rootLayer, acnPid_length]

/-- R72: the framing layer has 77 bytes. -/
@[simp] theorem framingLayer_length (s : State) (total : Nat) (seq : Byte) :
    (framingLayer s total seq).length = 77 := by
  simp [framingLayer]

/-- R77: the DMP layer has 11 + n bytes. -/
@[simp] theorem dmpLayer_length (total : Nat) (dmx : List Byte) :
    (dmpLayer total dmx).length = 11 + dmx.length := by
  simp [dmpLayer]
  omega

/-- R81: the packet has 126 + n bytes. -/
@[simp] theorem packet_length (s : State) (dmx : List Byte) (seq : Byte) :
    (packet s dmx seq).length = 126 + dmx.length := by
  simp [packet]
  omega

/-! ## The layers read the configuration registers only -/

@[simp] theorem rootLayer_setTx (m : Memory) (s : State) (total : Nat) :
    rootLayer (setTx m s) total = rootLayer s total := rfl

@[simp] theorem framingLayer_setTx (m : Memory) (s : State) (total : Nat) (seq : Byte) :
    framingLayer (setTx m s) total seq = framingLayer s total seq := rfl

/-- Two states with the same configuration registers and `FRAME_LEN_ADJ` have the same packets (45_assembler.md R84). -/
theorem packet_congr {s t : State} (hcid : s.cid = t.cid) (hname : s.name = t.name)
    (hprio : s.prio = t.prio) (hsync : s.sync = t.sync) (hopt : s.opt = t.opt) (huniv : s.univ = t.univ)
    (hadj : s.params.frameLenAdj = t.params.frameLenAdj)
    (dmx : List Byte) (seq : Byte) : packet s dmx seq = packet t dmx seq := by
  simp only [packet, rootLayer, framingLayer, hcid, hname, hprio, hsync, hopt, huniv, hadj]

/-! ## Length fields -/

/-- A u16 total less a constant, as the encoders compute it and as the layers write it. -/
theorem half_sub_eq {total : Half} {k : Nat} (h : k ≤ total.toNat) (hk : k < 65536) :
    BitVec.ofNat 16 (total.toNat - k) = total - BitVec.ofNat 16 k := by
  apply BitVec.eq_of_toNat_eq
  have := total.isLt
  simp [BitVec.toNat_sub]
  omega

theorem flagsAndLength_eq {total : Half} {k : Nat} (h : k ≤ total.toNat) (hk : k < 65536) :
    flagsAndLength (total.toNat - k) = be 2 (packfl (total - BitVec.ofNat 16 k) Config.flags) := by
  rw [flagsAndLength, half_sub_eq h hk]
  rfl

/-- Both settings of `FRAME_LEN_ADJ` are below every total. -/
theorem frameLenAdj_value_le (a : Config.FrameLenAdj) : a.value.toNat ≤ 47 := by
  cases a <;> decide

/-! ## The encoders as one run -/

/-- `WRFRAME` writes the framing layer at 38. -/
theorem wrFrame_run {total : Half} (h : 126 ≤ total.toNat) (seq : Byte) (s : State) :
    wrFrame total seq s = setTx (s.tx.writeBytes 38 (framingLayer s total.toNat seq)) s := by
  have bound := frameLenAdj_value_le s.params.frameLenAdj
  have e := flagsAndLength_eq (total := total) (k := s.params.frameLenAdj.value.toNat) (by omega) (by omega)
  rw [BitVec.ofNat_toNat, BitVec.setWidth_eq] at e
  rw [wrFrame_eq, framingLayer, e]
  simp only [Memory.writeBytes_append, List.length_append, be_length, Vector.length_toList, be_one,
    List.length_cons, List.length_nil, Nat.reduceAdd]

/-- `WRDMP` writes the DMP layer at 115. -/
theorem wrDmp_run {total : Half} (h : 126 ≤ total.toNat) (dmx : List Byte) (s : State) :
    wrDmp total dmx s = setTx (s.tx.writeBytes 115 (dmpLayer total.toNat dmx)) s := by
  have e := flagsAndLength_eq (total := total) (k := 114) (by omega) (by omega)
  rw [wrDmp_eq, dmpLayer, e]
  simp only [Memory.writeBytes_append, List.length_append, be_length, List.length_cons, List.length_nil,
    Nat.reduceAdd]
  rfl

/-! ## The commands that assemble a packet, when they complete -/

/-- `FRAME` in READY with at most 512 channel bytes. -/
theorem execFrame_next {s : State} (h : s.phase = .ready) (seq : Byte) {n : Half} (hn : n.toNat ≤ 512) :
    exec (.frame seq n) s = .next (setStatus .ok (assemble (channelData s n) seq s)) :=
  (requirePhase_of_eq h ..).trans (if_neg (Nat.not_lt.2 hn))

/-- `SEND` in READY with at most 512 channel bytes. -/
theorem execSend_next {s : State} (h : s.phase = .ready) {n : Half} (hn : n.toNat ≤ 512) :
    exec (.send n) s = .next (setStatus .ok
      (handOver (assemble (channelData s n) (s.seq + 1#8) (setSeq (s.seq + 1#8) s)))) :=
  (requirePhase_of_eq h ..).trans (if_neg (Nat.not_lt.2 hn))

end Sys2Proof.Safety
end

