-- ==== Sys2Proof/Laws/PerInstr.lean ====
section
/-! SUPPORT. Statements about every command, one lemma per constructor of `Instr`. The family `Opcode`:
the encoder puts the opcode of rule R45 (30_encoding.md) into `W[31:24]`, whatever the operands. -/

namespace Sys2Proof.Laws.Opcode

/-- The opcode column of rule R45. -/
def number : Instr → Byte
  | .ldcid => 0x01#8
  | .ldname _ => 0x02#8
  | .setuniv _ => 0x03#8
  | .setprio _ => 0x04#8
  | .setsync _ => 0x05#8
  | .setopt _ => 0x06#8
  | .commit => 0x07#8
  | .nextseq => 0x10#8
  | .frame _ _ => 0x11#8
  | .send _ => 0x12#8
  | .mcaddr _ => 0x13#8
  | .packfl _ _ => 0x14#8

def Statement (i : Instr) : Prop := opcodeOf (encode i) = number i

/-- Bits 31 to 24 of an opcode followed by 24 operand bits are the opcode. -/
theorem opcodeOf_append (op : Byte) (rest : BitVec 24) : opcodeOf (op ++ rest) = op := by
  apply BitVec.eq_of_getLsbD_eq
  intro j hj
  simp only [opcodeOf, BitVec.getLsbD_extractLsb', BitVec.getLsbD_append]
  simp [hj]

theorem formatZ_opcode (op : Byte) : opcodeOf (formatZ op) = op := by
  rw [formatZ, BitVec.append_assoc, BitVec.append_assoc]
  exact opcodeOf_append op _

theorem formatI16_opcode (op : Byte) (imm : Half) : opcodeOf (formatI16 op imm) = op := by
  rw [formatI16, BitVec.append_assoc]
  exact opcodeOf_append op _

theorem formatI8_opcode (op imm : Byte) : opcodeOf (formatI8 op imm) = op := by
  rw [formatI8, BitVec.append_assoc, BitVec.append_assoc]
  exact opcodeOf_append op _

theorem formatF_opcode (op a : Byte) (imm : Half) : opcodeOf (formatF op a imm) = op := by
  rw [formatF, BitVec.append_assoc]
  exact opcodeOf_append op _

theorem ldcid : Statement (.ldcid) := formatZ_opcode _
theorem ldname (len : Half) : Statement (.ldname len) := formatI16_opcode _ _
theorem setuniv (u : Half) : Statement (.setuniv u) := formatI16_opcode _ _
theorem setprio (p : Byte) : Statement (.setprio p) := formatI8_opcode _ _
theorem setsync (sync : Half) : Statement (.setsync sync) := formatI16_opcode _ _
theorem setopt (mask : Byte) : Statement (.setopt mask) := formatI8_opcode _ _
theorem commit : Statement (.commit) := formatZ_opcode _
theorem nextseq : Statement (.nextseq) := formatZ_opcode _
theorem frame (seq : Byte) (n : Half) : Statement (.frame seq n) := formatF_opcode _ _ _
theorem send (n : Half) : Statement (.send n) := formatI16_opcode _ _
theorem mcaddr (u : Half) : Statement (.mcaddr u) := formatI16_opcode _ _
theorem packfl (flags : Byte) (len : Half) : Statement (.packfl flags len) := formatF_opcode _ _ _

end Sys2Proof.Laws.Opcode
end

