-- ==== Sys2Proof/Tests/Slice0.lean ====
section
/-! SUPPORT. Small tests, each expected value taken from spec/95_test_vectors.md (the table or the program
is named), and one witness theorem for each statement that has hypotheses. -/

namespace Sys2Proof.Tests

-- The checks run one after another: side by side they need more threads than a small machine grants.
set_option Elab.async false

open Sys2Proof Sys2Proof.Machine Sys2Proof.Safety

/-! ## Small states -/

/-- The state an outcome goes on with. -/
def after : Host.Outcome State Fault Refusal → Option State
  | .next s => some s
  | .fault _ => none
  | .refused _ => none

/-- Reset, with `bs` written to `IN` from `IN[0]` on. -/
def withIn (bs : List Byte) : State := { State.reset with inMem := Memory.writeBytes [] 0 bs }

/-- The three registers without a reset value loaded (the CID of table B4, the name "Desk A", universe 1),
still in CONFIG. -/
def loaded : State :=
  { withIn [0xFF#8, 0x80#8, 0x00#8] with
    cid := toBytes 16 [0x00#8, 0x01#8, 0x02#8, 0x03#8, 0x04#8, 0x05#8, 0x06#8, 0x07#8, 0x08#8, 0x09#8,
      0x0A#8, 0x0B#8, 0x0C#8, 0x0D#8, 0x0E#8, 0x0F#8]
    name := toBytes 64 [0x44#8, 0x65#8, 0x73#8, 0x6B#8, 0x20#8, 0x41#8]
    nameLen := 6#6
    univ := 1#16
    cidSet := true
    nameSet := true
    univSet := true }

/-- The same in READY: program P1 before its `SEND`. -/
def ready : State := { loaded with phase := .ready }

/-- The bytes `bs` as a memory, from `k` on. -/
def cellsFrom (k : Nat) : List Byte → Memory
  | [] => []
  | b :: bs => (k, b) :: cellsFrom (k + 1) bs

/-- READY with a packet of no channel bytes and sequence number 200 in `TX`. -/
def framed : State :=
  { ready with txValid := true, txLen := 126#10, tx := cellsFrom 0 (packet ready [] 200#8) }

theorem cellsFrom_read_below (bs : List Byte) {k a : Nat} (h : a < k) : (cellsFrom k bs).read a = none := by
  induction bs generalizing k with
  | nil => rfl
  | cons b bs ih => rw [cellsFrom, Memory.read_cons, if_neg (by omega), ih (by omega)]

theorem cellsFrom_read (bs : List Byte) (k i : Nat) : (cellsFrom k bs).read (k + i) = bs[i]? := by
  induction bs generalizing k i with
  | nil => rfl
  | cons b bs ih =>
    rw [cellsFrom, Memory.read_cons]
    cases i with
    | zero => simp
    | succ i =>
      rw [if_neg (by omega), show k + (i + 1) = k + 1 + i by omega, ih, List.getElem?_cons_succ]

theorem cellsFrom_bounds (bs : List Byte) (k : Nat) :
    ∀ c ∈ cellsFrom k bs, k ≤ c.1 ∧ c.1 < k + bs.length := by
  induction bs generalizing k with
  | nil => simp [cellsFrom]
  | cons b bs ih =>
    intro c hc
    rw [List.length_cons]
    rcases List.mem_cons.1 hc with rfl | hc
    · exact ⟨Nat.le_refl _, by simp only; omega⟩
    · have := ih (k + 1) c hc
      omega

theorem cellsFrom_wf (bs : List Byte) (k : Nat) : (cellsFrom k bs).wf := by
  induction bs generalizing k with
  | nil => exact List.Pairwise.nil
  | cons b bs ih => exact List.pairwise_cons.2 ⟨fun c hc => (cellsFrom_bounds bs (k + 1) c hc).1, ih _⟩

theorem framed_read (a : Nat) : framed.tx.read a = (packet ready [] 200#8)[a]? := by
  have h := cellsFrom_read (packet ready [] 200#8) 0 a
  rwa [Nat.zero_add] at h

/-! ## The checks of WellFormed refuse -/

theorem test_wellFormed_refuses_high_mask_bit : (Instr.setopt 0x80#8).wellFormed = false := by decide
theorem test_wellFormed_refuses_low_mask_bit : (Instr.setopt 0x41#8).wellFormed = false := by decide
theorem test_wellFormed_admits_the_three_bits : (Instr.setopt 0x70#8).wellFormed = true := by decide

/-! ## Decoding (tables B2, B5, B8 to B12), each word written out from rules R43 and R45 -/

theorem test_decode_ldcid : decode 0b00000001000000000000000000000000#32 = .ok .ldcid := by decide
theorem test_decode_ldname : decode 0b00000010000000000000000001000000#32 = .ok (.ldname 64#16) := by decide
theorem test_decode_setuniv : decode 0b00000011000000001111100111111111#32 = .ok (.setuniv 63999#16) := by
  decide
theorem test_decode_setprio : decode 0b00000100000000000000000011001000#32 = .ok (.setprio 200#8) := by
  decide
theorem test_decode_setsync : decode 0b00000101000000000001001000110100#32 = .ok (.setsync 0x1234#16) := by
  decide
theorem test_decode_setopt : decode 0b00000110000000000000000001110000#32 = .ok (.setopt 0x70#8) := by decide
theorem test_decode_commit : decode 0b00000111000000000000000000000000#32 = .ok .commit := by decide
theorem test_decode_nextseq : decode 0b00010000000000000000000000000000#32 = .ok .nextseq := by decide
theorem test_decode_frame : decode 0b00010001110010000000000000000011#32 = .ok (.frame 200#8 3#16) := by
  decide
theorem test_decode_send : decode 0b00010010000000000000001000000001#32 = .ok (.send 513#16) := by decide
theorem test_decode_mcaddr : decode 0b00010011000000001111101011010110#32 = .ok (.mcaddr 64214#16) := by
  decide
theorem test_decode_packfl : decode 0b00010100111111110001001000110100#32 = .ok (.packfl 0xFF#8 0x1234#16) := by
  decide
theorem test_decode_rejects_unused_opcodes :
    decode 0x00000000#32 = .error .unusedOpcode ∧ decode 0x08000000#32 = .error .unusedOpcode ∧
    decode 0x0FFFFFFF#32 = .error .unusedOpcode ∧ decode 0x15000000#32 = .error .unusedOpcode ∧
    decode 0xFFFFFFFF#32 = .error .unusedOpcode := by decide
theorem test_decode_rejects_reserved_bits :
    decode 0x01000001#32 = .error .reservedBits ∧ decode 0x02010000#32 = .error .reservedBits ∧
    decode 0x0400FF00#32 = .error .reservedBits ∧ decode 0x06000008#32 = .error .reservedBits ∧
    decode 0x06000080#32 = .error .reservedBits := by decide
theorem test_encode_pseudo : encode (Instr.packflDefault 623#16) = 0x1407026F#32 := by decide

/-! ## The configuration commands (tables B3, B8, program P3) -/

theorem test_ldcid : (after (exec .ldcid (withIn [0xDE#8, 0xAD#8]))).map (fun t => (t.cid[0], t.cid[1])) =
    some (0xDE#8, 0xAD#8) := by decide
theorem test_ldname_short :
    (after (exec (.ldname 5#16) (withIn [0x61#8, 0x61#8, 0x61#8, 0x00#8, 0x62#8]))).map (fun t =>
      (t.nameLen, t.name[3], t.name[4], t.name[5])) = some (5#6, 0x00#8, 0x62#8, 0x00#8) := by decide
/-- 62 letters and a two-byte character: cut to 62. -/
theorem test_ldname_keeps_characters_whole :
    (after (exec (.ldname 64#16) (withIn (List.replicate 62 0x61#8 ++ [0xC3#8, 0xA9#8])))).map (fun t =>
      (t.nameLen, t.name[61], t.name[62])) = some (62#6, 0x61#8, 0x00#8) := by decide +kernel
theorem test_setuniv_unchecked : (after (exec (.setuniv 65535#16) State.reset)).map (·.univ) = some 65535#16 := by
  decide
theorem test_setprio_unchecked : (after (exec (.setprio 255#8) State.reset)).map (·.prio) = some 255#8 := by
  decide
theorem test_setprio_ready : (after (exec (.setprio 50#8) ready)).map (fun t => (t.prio, t.status)) =
    some (100#8, .errPhase) := by decide
theorem test_setsync : (after (exec (.setsync 0x1234#16) State.reset)).map (·.sync) = some 0x1234#16 := by
  decide
theorem test_setopt : (after (exec (.setopt 0x50#8) State.reset)).map (·.opt) = some ⟨true, false, true⟩ := by
  decide
theorem test_setopt_byte : optByte ⟨true, false, true⟩ = 0x50#8 ∧ optByte ⟨false, true, false⟩ = 0x20#8 := by
  decide
theorem test_commit : (after (exec .commit loaded)).map (·.phase) = some .ready := by decide
theorem test_commit_unconfigured : (after (exec .commit State.reset)).map (fun t => (t.phase, t.status)) =
    some (.config, .errUnconf) := by decide

/-! ## The packet commands (tables B7, B9, B10, program P1) -/

theorem test_nextseq_wraps :
    (after (exec .nextseq { ready with seq := 255#8 })).map (fun t => (t.seq, t.result)) =
      some (0#8, 0#32) := by decide
theorem test_nextseq_config : (after (exec .nextseq loaded)).map (fun t => (t.seq, t.status)) =
    some (0#8, .errPhase) := by decide
theorem test_frame :
    (after (exec (.frame 200#8 3#16) ready)).map (fun t => (t.txLen, t.txValid, t.seq)) =
      some (129#10, true, 0#8) := by
  rw [execFrame_next (s := ready) rfl 200#8 (n := 3#16) (by decide), assemble_frame]
  decide
theorem test_frame_too_long :
    (after (exec (.frame 0#8 513#16) framed)).map (fun t => (t.status, t.txValid, t.txLen)) =
      some (.errLen, false, 0#10) := by decide
theorem test_send :
    (after (exec (.send 3#16) ready)).map (fun t => (t.seq, t.txLen, t.txLog.map (·.dest))) =
      some (1#8, 129#10, [0xEFFF0001#32]) := by
  rw [execSend_next rfl (by decide), assemble_frame]
  decide
theorem test_send_too_long_keeps_seq :
    (after (exec (.send 513#16) framed)).map (fun t => (t.status, t.seq, t.txValid)) =
      some (.errLen, 0#8, false) := by decide

/-! ## The pure commands (tables B2, B11) -/

theorem test_mcaddr : (after (exec (.mcaddr 64214#16) State.reset)).map (·.result) = some 0xEFFFFAD6#32 := by
  decide
theorem test_packfl : (after (exec (.packfl 0xFF#8 0x1234#16) State.reset)).map (·.result) =
    some 0x0000F234#32 := by decide
theorem test_packfl_masks_length : packfl 4097#16 0x07#8 = 0x7001#16 := by decide

/-! ## Primitives (tables B1, B3) -/

theorem test_be : be 4 0x12345678#32 = [0x12#8, 0x34#8, 0x56#8, 0x78#8] := by decide
theorem test_trunc63_exact : (trunc63 (List.replicate 63 0x61#8)).length = 63 := by decide +kernel
theorem test_trunc63_four_byte_character :
    (trunc63 (List.replicate 60 0x61#8 ++ [0xF0#8, 0x9F#8, 0x98#8, 0x80#8])).length = 60 := by decide +kernel
theorem test_trunc63_continuations_only : trunc63 (List.replicate 70 0x80#8) = [] := by decide +kernel

/-! ## Layers (tables B5, B6) -/

theorem test_wrRoot : txRun (wrRoot 129#16 ready) 15 3 = [some 0x00#8, some 0x70#8, some 0x72#8] := by
  decide
/-- Sync address, sequence number, options and universe. -/
theorem test_wrFrame : txRun (wrFrame 129#16 200#8 ready) 108 7 =
    [some 0x64#8, some 0x00#8, some 0x00#8, some 0xC8#8, some 0x00#8, some 0x00#8, some 0x01#8] := by
  decide +kernel
theorem test_wrDmp : txRun (wrDmp 129#16 [0xFF#8, 0x80#8, 0x00#8] ready) 123 5 =
    [some 0x00#8, some 0x04#8, some 0x00#8, some 0xFF#8, some 0x80#8] := by decide

/-! ## Steps -/

theorem test_step_command : (after (step (State.reset.withFetchWord 32 0x04000032))).map (fun t =>
    (t.prio, t.inbox, t.replies)) = some (50#8, [], [.status .ok]) := by decide
theorem test_step_illegal : (after (step (State.reset.withFetchWord 32 0x12010003))).map (·.replies) =
    some [.status .errIllegal] := by decide
theorem test_step_readReg : (after (step { ready with inbox := [.readReg .univ] })).map (·.replies) =
    some [.reg (.uint 16 1)] := by decide

/-! ## Witnesses: states and operands that meet the hypotheses of each statement that has some

Where a statement has several clauses there is a witness for each, at the boundary of its range. -/

theorem witness_DecodeOfEncode :
    (Instr.setopt 0x70#8).wellFormed = true ∧ (Instr.frame 255#8 65535#16).wellFormed = true := by decide

theorem witness_EncodeOfDecode : decode 0x11FFFFFF#32 = .ok (.frame 255#8 65535#16) := by decide

theorem witness_OpcodeRowsDisjoint :
    ∃ r ∈ opcodeTable, 0x06000070#32 &&& r.mask = r.pattern := by decide

/-- Each range of unused opcodes at both ends, and each must-be-zero field. -/
theorem witness_IllegalWordsChangeStatusOnly :
    (UnusedOpcode 0x00000000#32 ∧ UnusedOpcode 0x08000000#32 ∧ UnusedOpcode 0x0FFFFFFF#32 ∧
      UnusedOpcode 0x15000000#32 ∧ UnusedOpcode 0xFFFFFFFF#32) ∧
    NonzeroReserved 0x01000001#32 ∧ NonzeroReserved 0x12010003#32 ∧ NonzeroReserved 0x04000100#32 ∧
    NonzeroReserved 0x06000100#32 ∧ NonzeroReserved 0x06000080#32 ∧ NonzeroReserved 0x06000001#32 :=
  ⟨⟨.inl rfl, .inr (.inl (by decide)), .inr (.inl (by decide)), .inr (.inr (by decide)),
      .inr (.inr (by decide))⟩,
    .inl (by decide), .inr (.inl (by decide)), .inr (.inr (.inl (by decide))),
    .inr (.inr (.inr (by decide))), .inr (.inr (.inr (by decide))), .inr (.inr (.inr (by decide)))⟩

/-- Each of the three widths, with the last byte in range (table B1). -/
theorem witness_BigEndianBytesOfInteger :
    (be 1 0x64#8)[0]? = some 0x64#8 ∧ (be 2 0xF9FF#16)[1]? = some 0xFF#8 ∧
    (be 4 0x12345678#32)[3]? = some 0x78#8 ∧ bigEndianValue (be 2 0xF9FF#16) = 63999 := by decide

/-- `MemWrite(109, 2, 0x1234)` on an empty `TX` (table B1): both bytes, and the neighbours. -/
theorem witness_TxWritesReadBack :
    txRun (memWrite 109 2 0x1234#16 State.reset) 108 4 = [none, some 0x12#8, some 0x34#8, none] := by decide

/-- The lowest and the highest bit. -/
theorem witness_OptionsByteHasThreeBits : (0 < 8 ∧ 7 < 8) ∧ (optByte ⟨true, true, true⟩).getLsbD 6 = true := by
  decide

/-- A name of 63 bytes, and one of 64. -/
theorem witness_TruncationCutsAtLargestIndex :
    (List.replicate 63 0x61#8).length ≤ 63 ∧ 63 < (List.replicate 64 0x61#8).length := by simp

/-- 21 euro signs and one letter: 64 bytes of well-formed UTF-8. -/
theorem witness_TruncationKeepsUtf8 :
    WellFormedUtf8 ((List.replicate 21 [0xE2#8, 0x82#8, 0xAC#8] ++ [[0x61#8]]).flatten) ∧
    ((List.replicate 21 [0xE2#8, 0x82#8, 0xAC#8] ++ [[0x61#8]]).flatten).length = 64 := by
  refine ⟨⟨_, fun e he => ?_, rfl⟩, by decide⟩
  rcases List.mem_append.1 he with h | h
  · rw [List.eq_of_mem_replicate h]
    decide
  · rw [List.mem_singleton.1 h]
    decide

/-- Two names longer than 63 bytes, of different lengths, with the same first 64 bytes. -/
theorem witness_TruncationReadsFirst64 :
    63 < (List.replicate 64 0x61#8).length ∧ 63 < (List.replicate 64 0x61#8 ++ [0x62#8]).length ∧
    (List.replicate 64 0x61#8).take 64 = (List.replicate 64 0x61#8 ++ [0x62#8]).take 64 := by decide

/-- A state of each phase, CONFIG both before and after the three loads: for the statements about `LDCID`,
`SETUNIV`, `SETPRIO`, `SETSYNC`, `SETOPT`, `NEXTSEQ` and counting with `NEXTSEQ`. -/
theorem witness_phases : State.reset.phase = .config ∧ loaded.phase = .config ∧ ready.phase = .ready := by
  decide

/-- The largest length `LDNAME` takes, and the smallest it does not; two input memories with the same
first 64 bytes. -/
theorem witness_LdnameStoresNameField :
    loaded.phase = .config ∧ (512#16 : Half).toNat ≤ loaded.params.inSize ∧
    loaded.params.inSize < (513#16 : Half).toNat ∧ ready.phase = .ready ∧
    ∀ a, a < 64 → (loaded.inMem.write 64 0xAA#8).read a = loaded.inMem.read a := by
  decide +kernel

/-- A mask with bit 7, and one with bit 0. -/
theorem witness_SetoptAssignsThreeFlags : 0x80#8 &&& 0x8F#8 ≠ 0#8 ∧ 0x41#8 &&& 0x8F#8 ≠ 0#8 := by decide

/-- Everything loaded; and each of the three set-flags 0. -/
theorem witness_CommitEntersReady :
    (loaded.phase = .config ∧ loaded.cidSet = true ∧ loaded.nameSet = true ∧ loaded.univSet = true) ∧
    ({ loaded with cidSet := false }).cidSet = false ∧ ({ loaded with nameSet := false }).nameSet = false ∧
    ({ loaded with univSet := false }).univSet = false ∧ ready.phase = .ready := by decide

/-- No channel byte, 512 and 513 of them, in READY; and CONFIG: for the statements about `FRAME`, `SEND`,
`NEXTSEQ` followed by `FRAME`, and the wire format. -/
theorem witness_FrameAssemblesPacket :
    ready.phase = .ready ∧ (0#16 : Half).toNat ≤ 512 ∧ (512#16 : Half).toNat ≤ 512 ∧
    512 < (513#16 : Half).toNat ∧ loaded.phase = .config := by decide

/-- Two READY states that differ in everything the packet may not depend on. -/
theorem witness_FramedPacketIsPure :
    let other := { ready with seq := 77#8, result := 5#32, status := .errLen, nameLen := 3#6 }
    ready.phase = .ready ∧ other.phase = .ready ∧ (3#16 : Half).toNat ≤ 512 ∧ ready.cid = other.cid ∧
    ready.name = other.name ∧ ready.prio = other.prio ∧ ready.sync = other.sync ∧ ready.opt = other.opt ∧
    ready.univ = other.univ ∧ ready.params.frameLenAdj = other.params.frameLenAdj ∧
    ∀ a, a < 3 → inByte ready a = inByte other a := by
  exact ⟨rfl, rfl, by decide, rfl, rfl, rfl, rfl, rfl, rfl, rfl, fun _ _ => rfl⟩

/-- Both settings of `FRAME_LEN_ADJ`, each with a total in range: bytes 38 and 39 of table B7 for n = 3. -/
theorem witness_WrframeWritesFramingLayer :
    126 ≤ (129#16 : Half).toNat ∧ (129#16 : Half).toNat ≤ 638 ∧
    txRun (wrFrame 129#16 1#8 ready) 38 2 = [some 0x70#8, some 0x5C#8] ∧
    txRun (wrFrame 129#16 1#8 { ready with params := ⟨.printed, 512⟩ }) 38 2 = [some 0x70#8, some 0x52#8] := by
  decide +kernel

/-- The smallest and the largest total; for `WRFRAME` too. -/
theorem witness_WrrootWritesRootLayer :
    126 ≤ (126#16 : Half).toNat ∧ (126#16 : Half).toNat ≤ 638 ∧ (638#16 : Half).toNat ≤ 638 := by decide

/-- The longest and the shortest channel data, with their totals; for the assembler too. -/
theorem witness_WrdmpWritesDmpLayer :
    (List.replicate 512 0x00#8).length ≤ 512 ∧
    (638#16 : Half).toNat = 126 + (List.replicate 512 0x00#8).length ∧
    (126#16 : Half).toNat = 126 + ([] : List Byte).length := by
  rw [List.length_replicate]
  decide

/-- For each of the statuses, a word and a state that end with it. -/
theorem witness_FirstApplicableStatusIsReported :
    (after (runWord 0x00000000#32 ready)).map (·.status) = some .errIllegal ∧
    (after (runWord 0x12000201#32 loaded)).map (·.status) = some .errPhase ∧
    (after (runWord 0x12000201#32 ready)).map (·.status) = some .errLen ∧
    (after (runWord 0x02000201#32 loaded)).map (·.status) = some .errNamelen ∧
    (after (runWord 0x07000000#32 State.reset)).map (·.status) = some .errUnconf ∧
    (after (runWord 0x07000000#32 loaded)).map (·.status) = some .ok := by decide

/-- An error of a command that frames, with a packet in `TX`; and one of a word that does not decode. -/
theorem witness_ErrorsChangeNothingElse :
    framed.txValid = true ∧
    (after (runWord 0x12000201#32 framed)).map (fun t => (t.status, t.txValid)) = some (.errLen, false) ∧
    (after (runWord 0x12010003#32 framed)).map (fun t => (t.status, t.txValid)) = some (.errIllegal, true) := by
  decide

/-- A command of each kind that changes something, so that no "changed only by" clause is empty. -/
theorem witness_CommandsWriteOnlyTheirOwn :
    (after (exec (.setprio 5#8) loaded)).map (·.prio == loaded.prio) = some false ∧
    (after (exec .commit loaded)).map (·.phase == loaded.phase) = some false ∧
    (after (exec .nextseq ready)).map (·.seq == ready.seq) = some false ∧
    (after (exec (.mcaddr 1#16) ready)).map (·.result == ready.result) = some false ∧
    (after (exec (.frame 0#8 0#16) ready)).map (·.txValid) = some true := by decide

theorem witness_StepRunsDecodedCommand :
    decode 0x040000C8#32 = .ok (.setprio 200#8) ∧ decodeTableWord 32 0x040000C8 = some (.setprio 200#8) ∧
    exec (.setprio 200#8) (setInbox [] loaded) = .next (setStatus .ok (setPrio 200#8 (setInbox [] loaded))) := by
  exact ⟨by decide, by decide, rfl⟩

theorem witness_StepRejectsIllegalWord :
    ({ ready with inbox := [.command 0xFFFFFFFF#32] }).inbox = [.command 0xFFFFFFFF#32] ∧
    decode 0xFFFFFFFF#32 = .error .unusedOpcode := by decide

theorem witness_IdleBlockStaysAsItIs : ready.inbox = [] := by decide

/-- The last address of `IN` and the first beyond it. -/
theorem witness_HostWriteChangesOneByte :
    (after (step { ready with inbox := [.writeIN 511 0xAA#8] })).isSome = true ∧
    step { ready with inbox := [.writeIN 512 0xAA#8] } = .fault (.noSuchInAddress 512) :=
  ⟨by decide, rfl⟩

/-- The last address of `TX` and the first beyond it; a byte of the packet. -/
theorem witness_HostReadTxAnswersPacketByte :
    (after (step { framed with inbox := [.readTX 637] })).isSome = true ∧
    step { framed with inbox := [.readTX 638] } = .fault (.noSuchTxAddress 638) ∧
    framed.txValid = true ∧ 125 < framed.txLen.toNat ∧ framed.tx.read 125 = some 0x00#8 :=
  ⟨by decide, rfl, rfl, by decide, by rw [framed_read]; decide⟩

theorem witness_HostReadRegAnswersRegister :
    ({ ready with inbox := [.readReg .cid] }).inbox = [.readReg .cid] ∧ ready.cidSet = true ∧
    ready.nameSet = true ∧ ready.univSet = true := by decide

theorem witness_ResetActionRestoresResetValues :
    ({ framed with inbox := [.reset] }).inbox = [.reset] := rfl

/-- A state whose next action is legal, for each kind of action with a condition. -/
theorem witness_BlockNeverHalts :
    (∀ a b later, ({ ready with inbox := [.writeIN 511 0xAA#8] }).inbox = .writeIN a b :: later →
      a < ready.params.inSize) ∧
    ∀ a later, ({ ready with inbox := [.readTX 637] }).inbox = .readTX a :: later → a ≤ 637 := by
  refine ⟨fun a b later h => ?_, fun a later h => ?_⟩ <;> cases h <;> decide

/-- A READY state and a step of it that is no reset. -/
theorem witness_ReadyFreezesConfiguration :
    ready.phase = .ready ∧ (∀ later, ({ ready with inbox := [.command 0x04000032#32] }).inbox ≠ .reset :: later) ∧
    (after (step { ready with inbox := [.command 0x04000032#32] })).isSome = true := by
  exact ⟨rfl, by simp, by decide⟩

/-- A step that advances the counter, one that resets it and one that leaves it. -/
theorem witness_SequenceCounterAdvancesHoldsOrResets :
    (after (step { ready with inbox := [.command 0x10000000#32] })).map (fun t => (t.seq, t.status)) =
      some (1#8, .ok) ∧
    (after (step { ready with seq := 9#8, inbox := [.reset] })).map (·.seq) = some 0#8 ∧
    (after (step { ready with seq := 9#8, inbox := [.command 0x12000201#32] })).map (fun t => (t.seq, t.status)) =
      some (9#8, .errLen) := by decide

/-- A step of a machine with the other setting of both parameters. -/
theorem witness_ParametersStayAsDecided :
    (after (step { ready with params := ⟨.printed, 1024⟩, inbox := [.writeIN 1023 0xAA#8] })).map (·.params) =
      some ⟨.printed, 1024⟩ := by decide

/-- A step that hands over a packet. -/
theorem witness_OutputHistoryGrowsOnlyBySend :
    (after (step { ready with inbox := [.command 0x12000000#32] })).map (fun t => (t.status, t.txValid)) =
      some (.ok, true) ∧
    (∀ later, ({ ready with inbox := [.command 0x12000000#32] }).inbox ≠ .reset :: later) :=
  ⟨by decide, by simp⟩

theorem witness_StepKeepsMemoryCanonical : MemoryCanonical framed :=
  ⟨by decide, cellsFrom_wf .., by decide, fun c hc => by
    have := (cellsFrom_bounds _ _ c hc).2
    rw [packet_length] at this
    simp only [List.length_nil] at this
    simp only [Config.packetMax]
    omega⟩

theorem witness_StepKeepsTxInfoLegal : TxInfoLegal framed ∧ framed.txValid = true :=
  ⟨⟨fun _ => by decide, fun h => absurd h (by decide)⟩, rfl⟩

theorem witness_StepKeepsNamePadded : NamePadded framed ∧ framed.nameSet = true := by
  refine ⟨fun _ => ?_, rfl⟩
  decide

theorem witness_StepKeepsReadyConfigured : ReadyIsConfigured framed ∧ framed.phase = .ready :=
  ⟨fun _ => by decide, rfl⟩

theorem witness_StepKeepsTxHoldsPacket : TxHoldsPacket framed ∧ framed.txValid = true :=
  ⟨fun _ => ⟨rfl, [], 200#8, by simp, rfl, framed_read⟩, rfl⟩

theorem witness_StepKeepsTxSelfConsistent : TxSelfConsistent framed ∧ framed.txValid = true := by
  refine ⟨fun _ => ⟨fun a => ?_, ?_, ?_, ?_, ?_⟩, rfl⟩
  · rw [framed_read]
    simp [framed]
  all_goals
    simp only [field16, framed_read]
    decide

/-- READY, one datagram handed over, with sequence number 1. -/
def sentOne : State :=
  { ready with seq := 1#8, txLog := [⟨0xEFFF0001#32, packet ready [] 1#8⟩] }

theorem witness_StepKeepsLogLegal : LogLegal sentOne ∧ sentOne.txLog ≠ [] := by
  refine ⟨⟨fun h => absurd h (by decide), fun d hd => ?_⟩, by simp [sentOne]⟩
  rw [List.mem_singleton.1 hd]
  simp [sentOne, ready, loaded]

theorem witness_StepKeepsLogNumbered : LogNumbered sentOne ∧ sentOne.txLog ≠ [] ∧
    ∀ w later, ({ sentOne with inbox := [.command 0x12000000#32] }).inbox = .command w :: later →
      decode w ≠ .ok .nextseq := by
  refine ⟨⟨rfl, fun i h => ?_⟩, by simp [sentOne], fun w later h => ?_⟩
  · have : i = 0 := by
      simp [sentOne] at h
      omega
    subst this
    change (packet ready [] 1#8)[111]? = some 1#8
    decide
  · cases h
    decide

/-- Each of these states has a next state. -/
theorem witness_steps_from_invariant_states :
    step framed = .next framed ∧ step sentOne = .next sentOne := ⟨rfl, rfl⟩

end Sys2Proof.Tests
end

section
/-! The words the decoder rejects (30_encoding.md R46) and what running one does (60_exceptions.md R102). -/

namespace Sys2Proof

open Machine Safety

/-- R46 (a) on the four bytes of a word: the ranges of unused opcodes are the gaps of the opcode map. -/
theorem unusedOpcode_bytes (o a b c : Byte) :
    UnusedOpcode (o ++ a ++ b ++ c) ↔ opcodeListed o = false := by
  simp only [UnusedOpcode, bytes_31_24]
  revert o
  decide

/-- The must-be-zero bits of a `SETOPT` mask, bit 7 and bits 3 to 0, are those of the mask 0x8F. -/
theorem reservedMaskBits_iff (m : Byte) :
    (m.getLsbD 7 = true ∨ m.extractLsb' 0 4 ≠ 0#4) ↔ m &&& 0x8F#8 ≠ 0#8 := by
  revert m
  decide

/-- R46 (b) on the four bytes of a word: the must-be-zero bytes of each opcode. -/
theorem nonzeroReserved_bytes (o a b c : Byte) :
    NonzeroReserved (o ++ a ++ b ++ c) ↔
      ((o = 0x01#8 ∨ o = 0x07#8 ∨ o = 0x10#8) ∧ ¬(a = 0#8 ∧ b = 0#8 ∧ c = 0#8)) ∨
      ((o = 0x02#8 ∨ o = 0x03#8 ∨ o = 0x05#8 ∨ o = 0x12#8 ∨ o = 0x13#8) ∧ a ≠ 0#8) ∨
      (o = 0x04#8 ∧ ¬(a = 0#8 ∧ b = 0#8)) ∨
      (o = 0x06#8 ∧ ¬((a = 0#8 ∧ b = 0#8) ∧ c &&& 0x8F#8 = 0#8)) := by
  have low : ∀ i, i < 8 → (o ++ a ++ b ++ c : Word).getLsbD i = c.getLsbD i := by
    intro i hi
    simp only [BitVec.getLsbD_append, hi, if_true]
  have nibble : (o ++ a ++ b ++ c : Word).extractLsb' 0 4 = c.extractLsb' 0 4 := by
    apply BitVec.eq_of_getLsbD_eq
    intro i hi
    simp only [BitVec.getLsbD_extractLsb', Nat.zero_add, low i (by omega)]
  have half0 : (0#16 : Half) = 0#8 ++ 0#8 := rfl
  have bits0 : (0#24 : BitVec 24) = 0#8 ++ 0#8 ++ 0#8 := rfl
  have opcode : ∀ k : Nat, k < 256 → (o.toNat = k ↔ o = BitVec.ofNat 8 k) := by
    intro k hk
    rw [← BitVec.toNat_inj, BitVec.toNat_ofNat, Nat.mod_eq_of_lt hk]
  simp only [NonzeroReserved, bytes_31_24, bytes_23_16, bytes_23_8, bytes_23_0, low 7 (by omega), nibble,
    reservedMaskBits_iff, half0, bits0, bytes2_inj, bytes3_inj, ne_eq, ← not_and_or]
  simp (disch := decide) only [opcode]

/-- A chain of tests that each accept ends in an error exactly when every test fails. -/
theorem exists_error_ite {ε α : Type} (p : Prop) [Decidable p] (i : α) (rest : Except ε α) :
    (∃ e, (if p then .ok i else rest) = .error e) ↔ ¬p ∧ ∃ e, rest = .error e := by
  by_cases h : p <;> simp [h]

/-- R46: the decoder rejects exactly the words of the two cases. -/
theorem decode_error_iff (w : Word) :
    (∃ e, decode w = .error e) ↔ UnusedOpcode w ∨ NonzeroReserved w := by
  obtain ⟨o, a, b, c, rfl⟩ := word_of_bytes w
  rw [unusedOpcode_bytes, nonzeroReserved_bytes]
  cases listed : opcodeListed o with
  | false => simp [decode_unlisted listed]
  | true =>
    rw [decode_bytes]
    rcases (opcodeListed_iff o).1 listed with
        rfl | rfl | rfl | rfl | rfl | rfl | rfl | rfl | rfl | rfl | rfl | rfl <;>
      simp [exists_error_ite]

/-- A word that is no command writes `STATUS` and nothing else (60_exceptions.md R102). -/
theorem runWord_of_error {w : Word} {e : Illegal} (h : decode w = .error e) (s : State) :
    runWord w s = .next { s with status := .errIllegal } := by
  rcases runWord_cases w s with ⟨i, hi, -⟩ | ⟨-, -, hs⟩
  · exact absurd (hi.symm.trans h) nofun
  · exact hs

/-- Settles O4: the decoder's errors are the two cases of R46, and an error word only raises. -/
theorem illegalWordsChangeStatusOnly : Obligations.IllegalWordsChangeStatusOnly := by
  refine ⟨decode_error_iff, fun w s illegal => ?_⟩
  obtain ⟨e, he⟩ := (decode_error_iff w).2 illegal
  exact runWord_of_error he s

end Sys2Proof
end

section
/-! The shared primitives and the packet that the assembler leaves in `TX`, read row by row as the wire
format lists it (30_encoding.md R50). -/

/-! ## The options byte, flags+length fields, runs of bytes -/

namespace Sys2Proof.Machine

/-- R75: a flag shifted left by `k` in a byte is bit `k` of it. -/
theorem getLsbD_shiftedFlag (flag : Bool) (k : Nat) {i : Nat} (hi : i < 8) :
    ((BitVec.ofBool flag).setWidth 8 <<< k).getLsbD i = (i == k && flag) := by
  rw [BitVec.getLsbD_shiftLeft, BitVec.getLsbD_setWidth, BitVec.getLsbD_ofBool]
  by_cases h : i = k
  · simp [h, h ▸ hi]
  · by_cases lt : i < k
    · simp [lt, h]
    · have : i - k ≠ 0 := by omega
      simp [this, h]

/-- R52, R75: the bits of the options byte. -/
theorem optByte_getLsbD (o : Opt) {i : Nat} (hi : i < 8) :
    (optByte o).getLsbD i = ((i == 6 && o.p) || (i == 5 && o.t) || (i == 4 && o.f)) := by
  simp only [optByte, BitVec.getLsbD_or, getLsbD_shiftedFlag _ _ hi]

/-- Settles O8: each of the three flags is shifted to its own bit. -/
theorem optionsByteHasThreeBits : Obligations.OptionsByteHasThreeBits :=
  fun o _ hi => optByte_getLsbD o hi

/-- R55: the packed field is the nibble of the flags above the low 12 bits of the length. -/
theorem packfl_eq_append (length : Half) (flags : Byte) :
    packfl length flags = flags.extractLsb' 0 4 ++ length.extractLsb' 0 12 := by
  apply BitVec.eq_of_getLsbD_eq
  intro i hi
  simp only [packfl, BitVec.getLsbD_or, BitVec.getLsbD_and, BitVec.getLsbD_shiftLeft,
    BitVec.getLsbD_setWidth, BitVec.getLsbD_append, BitVec.getLsbD_extractLsb']
  interval_cases i <;> simp

/-- Runs of bytes that do not meet are written in either order. -/
theorem Memory.read_writeBytes_comm (m : Memory) {a b : Nat} {bs cs : List Byte}
    (h : a + bs.length ≤ b) (c : Nat) :
    ((m.writeBytes b cs).writeBytes a bs).read c = ((m.writeBytes a bs).writeBytes b cs).read c := by
  simp only [Memory.read_writeBytes]
  by_cases lower : a ≤ c ∧ c < a + bs.length
  · have notUpper : ¬(b ≤ c ∧ c < b + cs.length) := by omega
    simp only [if_pos lower, if_neg notUpper]
  · simp only [if_neg lower]

/-- What a run of writes makes of two memories that read alike reads alike. -/
theorem Memory.read_writeBytes_congr {m m' : Memory} (h : ∀ c, m.read c = m'.read c) (a : Nat)
    (bs : List Byte) (c : Nat) : (m.writeBytes a bs).read c = (m'.writeBytes a bs).read c := by
  rw [Memory.read_writeBytes, Memory.read_writeBytes, h c]

end Sys2Proof.Machine

/-! ## The assembled packet -/

namespace Sys2Proof.Safety

open Machine

/-- `WRROOT` writes the root layer at 0, its length field last (42_root_layer.md R70). -/
theorem wrRoot_read {total : Half} (h : 126 ≤ total.toNat) (s : State) (a : Nat) :
    (wrRoot total s).tx.read a = (s.tx.writeBytes 0 (rootLayer s total.toNat)).read a := by
  have field := flagsAndLength_eq (total := total) (k := 15) (by omega) (by omega)
  have joined : ∀ m : Memory, (m.writeBytes 18 (be 4 Config.rootVector)).writeBytes 22 s.cid.toList =
      m.writeBytes 18 (be 4 Config.rootVector ++ s.cid.toList) := by
    intro m
    rw [Memory.writeBytes_append, be_length]
  rw [wrRoot_eq, setTx_tx, joined, Memory.read_writeBytes_comm _ (by rw [be_length]), rootLayer,
    field]
  simp only [Memory.writeBytes_append, List.length_append, be_length, acnPid_length, Nat.reduceAdd]
  rfl

/-- R82: what `ASSEMBLE` leaves in `TX` is the packet written as one expression, and nothing beyond it
is listed. -/
theorem assemble_tx_read {dmx : List Byte} (h : dmx.length ≤ 512) (seq : Byte) (s : State) (a : Nat) :
    (assemble dmx seq s).tx.read a = (packet s dmx seq)[a]? := by
  have total := totalLength_toNat h
  have large : 126 ≤ (totalLength dmx.length).toNat := by omega
  have run : (assemble dmx seq s).tx.read a =
      ((Memory.zeroFilled (126 + dmx.length)).writeBytes 0 (packet s dmx seq)).read a := by
    rw [assemble, setTxInfo_tx, wrDmp_run large, setTx_tx, wrFrame_run large, setTx_tx, wrRoot_frame,
      framingLayer_setTx, framingLayer_setTx, setTx_tx, packet, Memory.writeBytes_append,
      Memory.writeBytes_append, List.length_append, rootLayer_length, framingLayer_length, total]
    refine Memory.read_writeBytes_congr (Memory.read_writeBytes_congr (fun c => ?_) _ _) _ _ _
    rw [wrRoot_read large, setTx_tx, rootLayer_setTx, total]
  rw [run, Memory.read_writeBytes, Memory.read_zeroFilled, packet_length, Nat.zero_add, Nat.sub_zero]
  by_cases inside : a < 126 + dmx.length
  · rw [if_pos ⟨Nat.zero_le a, inside⟩]
  · rw [if_neg (fun hc => inside hc.2), if_neg inside, List.getElem?_eq_none (by rw [packet_length]; omega)]

/-! ## The wire format as 22 rows -/

/-- The rows of the wire format in the order of the table (R50); each starts where the previous ends. -/
def wireRows (s : State) (dmx : List Byte) (seq : Byte) : List (List Byte) :=
  let total := 126 + dmx.length
  [be 2 0x0010#16, be 2 0x0000#16, Config.acnPid, flagsAndLength (total - 15), be 4 Config.rootVector,
    s.cid.toList, flagsAndLength (total - s.params.frameLenAdj.value.toNat), be 4 Config.framingVector,
    s.name.toList, [s.prio], be 2 s.sync, [seq], [optByte s.opt], be 2 s.univ,
    flagsAndLength (total - 114), [0x02#8], [0xA1#8], be 2 0x0000#16, be 2 0x0001#16,
    be 2 (BitVec.ofNat 16 (1 + dmx.length)), [0x00#8], dmx]

/-- The rows tile the packet. -/
theorem packet_eq_wireRows (s : State) (dmx : List Byte) (seq : Byte) :
    packet s dmx seq = (wireRows s dmx seq).flatten := by
  simp [packet, rootLayer, framingLayer, dmpLayer, wireRows]

/-- `TX` holds the given fields one after another from `a` on. -/
def HoldsFields (t : State) : Nat → List (List Byte) → Prop
  | _, [] => True
  | a, f :: fs => txRun t a f.length = f.map some ∧ HoldsFields t (a + f.length) fs

theorem txRun_eq_map_some {t : State} {a : Nat} {f : List Byte}
    (h : ∀ i, i < f.length → t.tx.read (a + i) = f[i]?) : txRun t a f.length = f.map some := by
  apply List.ext_getElem?
  intro i
  by_cases hi : i < f.length
  · simp [txRun, hi, h i hi]
  · simp [txRun, hi]

/-- A memory that reads as the fields joined holds each field at its offset. -/
theorem holdsFields_of_read {t : State} {a : Nat} {fs : List (List Byte)}
    (h : ∀ i, i < fs.flatten.length → t.tx.read (a + i) = fs.flatten[i]?) : HoldsFields t a fs := by
  induction fs generalizing a with
  | nil => trivial
  | cons f fs ih =>
    simp only [List.flatten_cons, List.length_append] at h
    refine ⟨txRun_eq_map_some fun i hi => ?_, ih fun i hi => ?_⟩
    · rw [h i (by omega), List.getElem?_append_left hi]
    · rw [Nat.add_assoc, h _ (by omega), List.getElem?_append_right (by omega), Nat.add_sub_cancel_left]

/-- A run of two bytes that is `BE(v, 2)` is the field `v`. -/
theorem field16_of_txRun {t : State} {a : Nat} {v : Half} (h : txRun t a 2 = (be 2 v).map some) :
    field16 t.tx a = some v := by
  simp only [txRun, be_two, List.range_succ, List.range_zero, List.nil_append, List.cons_append,
    List.map_cons, List.map_nil, Nat.add_zero, List.cons.injEq, and_true] at h
  obtain ⟨hi, lo⟩ := h
  obtain ⟨x, y, rfl⟩ := half_of_bytes v
  simp only [field16, hi, lo, extractLsb'_append_upper, extractLsb'_append_lower]
  rfl

/-- A flags+length field holds nibble 7 and the low 12 bits of the length (R51). -/
theorem flagsAndLength_eq_be (length : Nat) :
    flagsAndLength length = be 2 (0x7#4 ++ BitVec.ofNat 12 length) := by
  have low : (BitVec.ofNat 16 length).extractLsb' 0 12 = BitVec.ofNat 12 length := by
    rw [← BitVec.setWidth_eq_extractLsb' (by omega), BitVec.setWidth_ofNat_of_le (by omega)]
  rw [flagsAndLength, packfl_eq_append, low]
  rfl

theorem channelData_eq (s : State) (n : Half) :
    channelData s n = (List.range n.toNat).map (inByte s) := by
  simp [channelData, memRead]

/-- `FRAME` in READY with at most 512 channel bytes leaves the rows of the wire format in `TX`, from
offset 0 on. -/
theorem execFrame_holdsFields {s : State} (ready : s.phase = .ready) (seq : Byte) {n : Half}
    (short : n.toNat ≤ 512) :
    ∃ t, exec (.frame seq n) s = .next t ∧ HoldsFields t 0 (wireRows s (channelData s n) seq) := by
  have fits : (channelData s n).length ≤ 512 := by rwa [channelData, memRead_length]
  refine ⟨_, execFrame_next ready seq short, holdsFields_of_read fun i _ => ?_⟩
  rw [setStatus_tx, Nat.zero_add, assemble_tx_read fits, packet_eq_wireRows]

/-- Settles O35: the rows that `FRAME` leaves, with each length field read as nibble 7 above its length,
are the lines of the table. -/
theorem wireFormatFieldByField : Obligations.WireFormatFieldByField := by
  intro seq n s ready short
  obtain ⟨t, completes, rows⟩ := execFrame_holdsFields ready seq short
  refine ⟨t, completes, ?_⟩
  have len : (channelData s n).length = n.toNat := memRead_length ..
  simp only [HoldsFields, wireRows, flagsAndLength_eq_be, be_length, acnPid_length, Vector.length_toList,
    List.length_cons, List.length_nil, Nat.reduceAdd, len] at rows
  obtain ⟨preamble, postamble, pid, rootLen, rootVector, cid, frameLen, frameVector, name, prio, sync,
    seqNo, options, univ, dmpLen, dmpVector, addrType, firstAddr, addrInc, count, startCode, channels, -⟩ :=
    rows
  rw [channelData_eq, List.map_map] at channels
  exact ⟨preamble, postamble, pid, field16_of_txRun rootLen, rootVector, cid, field16_of_txRun frameLen,
    frameVector, name, prio, field16_of_txRun sync, seqNo,
    ⟨_, options, fun _ hi => optByte_getLsbD s.opt hi⟩, field16_of_txRun univ, field16_of_txRun dmpLen,
    dmpVector, addrType, firstAddr, addrInc, field16_of_txRun count, startCode, channels⟩

end Sys2Proof.Safety
end

section
/-! Big-endian integers and flags+length fields (40_primitives.md R54, R55, R60). -/

/-! ## The bytes of an integer -/

namespace Sys2Proof.Safety

open Machine

/-- R54: the byte at each index. -/
theorem be_getElem? {n i : Nat} (h : i < n) {w : Nat} (v : BitVec w) :
    (be n v)[i]? = some (v.extractLsb' (8 * (n - 1 - i)) 8) := by
  simp [be, h]

/-- R54: the first byte is the most significant one, the rest is the next narrower integer. -/
theorem be_succ (n : Nat) {w : Nat} (v : BitVec w) : be (n + 1) v = v.extractLsb' (8 * n) 8 :: be n v := by
  rw [be, List.range_succ_eq_map, List.map_cons, List.map_map, be]
  refine congrArg (_ :: ·) (List.map_congr_left fun i _ => ?_)
  have index : n + 1 - 1 - (i + 1) = n - 1 - i := by omega
  rw [Function.comp_apply, Nat.succ_eq_add_one, index]

/-- R54: `n` big-endian bytes are worth the low `8n` bits. -/
theorem bigEndianValue_be (n : Nat) {w : Nat} (v : BitVec w) :
    bigEndianValue (be n v) = v.toNat % 256 ^ n := by
  induction n with
  | zero => simp [be, bigEndianValue, Nat.mod_one]
  | succ n ih =>
    have byte : (v.extractLsb' (8 * n) 8).toNat = v.toNat / 256 ^ n % 256 := by
      rw [BitVec.extractLsb'_toNat, Nat.shiftRight_eq_div_pow, Nat.pow_mul]
    rw [be_succ, bigEndianValue, be_length, ih, byte, Nat.mod_pow_succ, Nat.mul_comm, Nat.add_comm]

/-- Settles O6: an integer of exactly `8n` bits is all of its low `8n` bits. -/
theorem bigEndianBytesOfInteger : Obligations.BigEndianBytesOfInteger := by
  intro n _ v
  have fits : v.toNat < 256 ^ n := by simpa only [Nat.pow_mul] using v.isLt
  exact ⟨be_length n v, fun _ hi => be_getElem? hi v, (bigEndianValue_be n v).trans (Nat.mod_eq_of_lt fits)⟩

end Sys2Proof.Safety

/-! ## The flags+length field -/

namespace Sys2Proof

open Machine Safety

/-- Settles O7: the nibble above the length, and the constant `Config.flags` as the default. -/
theorem packflPutsNibbleAboveLength : Obligations.PackflPutsNibbleAboveLength :=
  ⟨packfl_eq_append, fun _ => rfl⟩

/-- A format F word is its opcode, its byte and its half put side by side (30_encoding.md R43). -/
theorem formatF_eq_or (op a : Byte) (imm : Half) :
    formatF op a imm = (op ++ 0#24 : Word) ||| a.setWidth 32 <<< 16 ||| imm.setWidth 32 := by
  apply BitVec.eq_of_getLsbD_eq
  intro i hi
  simp only [formatF, BitVec.getLsbD_append, BitVec.getLsbD_or, BitVec.getLsbD_shiftLeft,
    BitVec.getLsbD_setWidth, BitVec.getLsbD_zero]
  interval_cases i <;> simp

/-- R60: every operand value of `PACKFL` decodes, since format F has no must-be-zero bits. -/
theorem decode_formatF_packfl (flags : Byte) (len : Half) :
    decode (formatF 0x14#8 flags len) = .ok (.packfl flags len) := by
  obtain ⟨hi, lo, rfl⟩ := half_of_bytes len
  rw [formatF, bytes_append_half, decode_bytes]
  simp

/-- Zero-extension of a half to a word. -/
theorem setWidth_half (v : Half) : v.setWidth 32 = 0#16 ++ v :=
  BitVec.setWidth_eq_append (by decide)

/-- R60: the whole next state of `PACKFL`. -/
theorem exec_packfl (flags : Byte) (len : Half) (s : State) :
    exec (.packfl flags len) s = .next { s with result := 0#16 ++ packfl len flags, status := .ok } := by
  rw [← setWidth_half]
  rfl

/-- Settles O30: the word is the format F word of opcode 0x14, and its effect holds in every state. -/
theorem packflComputesField : Obligations.PackflComputesField := by
  refine fun flags len => ⟨?_, fun s => ?_⟩
  · rw [← decode_formatF_packfl, formatF_eq_or]
    rfl
  · rw [exec_packfl, packfl_eq_append, BitVec.append_assoc, BitVec.cast_eq]

end Sys2Proof
end

section
/-! The truncation of the source name (41_utf8_truncation.md R61 to R66). `TRUNC63` cuts at the largest
code-point boundary it may; the well-formed prefixes of well-formed UTF-8 are those that end at one. -/

/-! ## What `TRUNC63` does with any byte sequence -/

namespace Sys2Proof.Safety

open Machine

theorem trunc63_of_le {s : List Byte} (short : s.length ≤ 63) : trunc63 s = s := if_pos short

theorem trunc63_of_gt {s : List Byte} (long : 63 < s.length) : trunc63 s = s.take (scanBack s 63) :=
  if_neg (Nat.not_le.2 long)

/-- A byte in range, read with a default. -/
theorem getElem?_eq_some_getD {s : List Byte} {j : Nat} (h : j < s.length) :
    s[j]? = some (s.getD j 0x00#8) := by
  rw [List.getElem?_eq_getElem h, List.getD_eq_getElem _ _ h]

/-- Settles O11: the cut of a longer name is where the scan back from index 63 stops. -/
theorem truncationCutsAtLargestIndex : Obligations.TruncationCutsAtLargestIndex := by
  refine fun s => ⟨trunc63_of_le, fun long => ?_⟩
  obtain ⟨le, stop, skipped⟩ := scanBack_spec s 63
  exact ⟨scanBack s 63, le, trunc63_of_gt long,
    stop.imp_right fun lead => ⟨_, getElem?_eq_some_getD (by omega), lead⟩,
    fun j above below => ⟨_, getElem?_eq_some_getD (by omega), skipped j above below⟩⟩

/-- Settles O14: since at most 63 bytes of the field are the name, the last one is padding. -/
theorem nameFieldIsPaddedTruncation : Obligations.NameFieldIsPaddedTruncation := by
  intro s
  have le := trunc63_length_le s
  refine ⟨rfl, rfl, ?_, ?_⟩
  · simp only [nameField, Config.nameField, List.length_append, List.length_replicate]
    omega
  · have padded : 63 - (trunc63 s).length < 64 - (trunc63 s).length := by omega
    rw [nameField, List.getElem?_append_right le]
    exact List.getElem?_replicate_of_lt padded

/-- R63 P1. -/
theorem trunc63_prefix (s : List Byte) : trunc63 s <+: s := by
  rcases Nat.lt_or_ge 63 s.length with long | short
  · exact trunc63_of_gt long ▸ List.take_prefix ..
  · rw [trunc63_of_le short]

/-- R63 P4. -/
theorem boundary_trunc63_length (s : List Byte) : Boundary s (trunc63 s).length := by
  obtain ⟨whole, cut⟩ := truncationCutsAtLargestIndex s
  rcases Nat.lt_or_ge 63 s.length with long | short
  · obtain ⟨k, le, eq, stop, -⟩ := cut long
    rw [eq, List.length_take_of_le (by omega)]
    exact stop.imp_right .inr
  · exact .inr (.inl (by rw [whole short]))

/-- No boundary up to 63 lies beyond the cut. -/
theorem le_trunc63_length_of_boundary {s : List Byte} {j : Nat} (boundary : Boundary s j)
    (inside : j ≤ s.length) (le : j ≤ 63) : j ≤ (trunc63 s).length := by
  obtain ⟨whole, cut⟩ := truncationCutsAtLargestIndex s
  rcases Nat.lt_or_ge 63 s.length with long | short
  · obtain ⟨k, k_le, eq, -, skipped⟩ := cut long
    rw [eq, List.length_take_of_le (by omega)]
    by_contra beyond
    obtain ⟨b, at_j, continues⟩ := skipped j (by omega) le
    rcases boundary with zero | all | ⟨b', at_j', lead⟩
    · omega
    · omega
    · obtain rfl : b' = b := Option.some.inj (at_j'.symm.trans at_j)
      exact absurd continues (by simp [lead])
  · rwa [whole short]

/-! ## The encodings of code points (R61) -/

/-- R61: a continuation byte is one of 80..BF. -/
theorem isContinuation_eq_tail : ∀ b : Byte, isContinuation b = tail b := by decide +kernel

/-- How many continuation bytes follow a first byte. -/
def continuationsAfter (a : Byte) : Nat :=
  if a.toNat < 0x80 then 0 else if a.toNat < 0xE0 then 1 else if a.toNat < 0xF0 then 2 else 3

theorem continuationsAfter_le (a : Byte) : continuationsAfter a ≤ 3 := by
  unfold continuationsAfter
  split_ifs <;> decide

/-- R61, facts (i) to (iii): an encoding is a non-continuation byte and as many continuation bytes as that
first byte says. -/
theorem isEncoding_shape {e : List Byte} (h : isEncoding e = true) :
    ∃ a r, e = a :: r ∧ isContinuation a = false ∧ r.length = continuationsAfter a ∧
      ∀ b ∈ r, isContinuation b = true := by
  simp only [← List.all_eq_true, isContinuation_eq_tail]
  match e, h with
  | [a], h | [a, b], h | [a, b, c], h | [a, b, c, d], h =>
    refine ⟨a, _, rfl, ?_⟩
    simp only [isEncoding, tail, within, continuationsAfter, BitVec.toNat_eq, BitVec.toNat_ofNat,
      Nat.reducePow, Nat.reduceMod, Bool.or_eq_true, Bool.and_eq_true, Bool.and_eq_false_imp, beq_iff_eq,
      decide_eq_true_eq, decide_eq_false_iff_not, List.length_cons, List.length_nil, List.all_cons,
      List.all_nil, and_true] at h ⊢
    split_ifs <;> omega

/-- No encoding is a proper prefix of another one, so an encoding at the front comes off in one way. -/
theorem isEncoding_append_inj {e f s t : List Byte} (he : isEncoding e = true) (hf : isEncoding f = true)
    (eq : e ++ s = f ++ t) : e = f ∧ s = t := by
  obtain ⟨a, r, rfl, -, length_r, -⟩ := isEncoding_shape he
  obtain ⟨b, q, rfl, -, length_q, -⟩ := isEncoding_shape hf
  obtain rfl : a = b := (List.cons.inj eq).1
  exact List.append_inj eq (by simp [length_r, length_q])

/-- Every byte of an encoding but the first is a continuation byte. -/
theorem isContinuation_of_isEncoding {e : List Byte} (h : isEncoding e = true) {k : Nat} (pos : 0 < k)
    (inside : k < e.length) : isContinuation e[k] = true := by
  obtain ⟨a, r, rfl, -, -, all⟩ := isEncoding_shape h
  rw [List.getElem_cons, dif_neg (by omega)]
  exact all _ (List.getElem_mem _)

theorem isEncoding_head {e : List Byte} (h : isEncoding e = true) (s : List Byte) :
    ∃ b, (e ++ s)[0]? = some b ∧ isContinuation b = false := by
  obtain ⟨a, r, rfl, lead, -⟩ := isEncoding_shape h
  exact ⟨a, rfl, lead⟩

theorem isEncoding_length {e : List Byte} (h : isEncoding e = true) : 0 < e.length ∧ e.length ≤ 4 := by
  obtain ⟨a, r, rfl, -, length_r, -⟩ := isEncoding_shape h
  have := continuationsAfter_le a
  simp only [List.length_cons]
  omega

/-! ## Well-formed UTF-8, one encoding after the other -/

theorem wellFormedUtf8_nil : WellFormedUtf8 [] := ⟨[], by simp, rfl⟩

/-- A well-formed sequence is empty or an encoding before a well-formed sequence. -/
theorem wellFormedUtf8_iff {s : List Byte} :
    WellFormedUtf8 s ↔ s = [] ∨ ∃ e t, isEncoding e = true ∧ WellFormedUtf8 t ∧ s = e ++ t := by
  constructor
  · rintro ⟨_ | ⟨e, es⟩, all, rfl⟩
    · exact .inl rfl
    · rw [List.forall_mem_cons] at all
      exact .inr ⟨e, es.flatten, all.1, ⟨es, all.2, rfl⟩, rfl⟩
  · rintro (rfl | ⟨e, _, he, ⟨es, all, rfl⟩, rfl⟩)
    · exact wellFormedUtf8_nil
    · exact ⟨e :: es, List.forall_mem_cons.2 ⟨he, all⟩, rfl⟩

/-- An encoding in front does not matter. -/
theorem wellFormedUtf8_append_iff {e s : List Byte} (he : isEncoding e = true) :
    WellFormedUtf8 (e ++ s) ↔ WellFormedUtf8 s := by
  refine ⟨fun h => ?_, fun h => wellFormedUtf8_iff.2 (.inr ⟨e, s, he, h, rfl⟩)⟩
  rcases wellFormedUtf8_iff.1 h with nil | ⟨f, t, hf, ht, eq⟩
  · obtain ⟨rfl, -⟩ := List.append_eq_nil_iff.1 nil
    exact absurd he (by decide)
  · obtain ⟨-, rfl⟩ := isEncoding_append_inj he hf eq
    exact ht

/-- Induction on the encodings of a well-formed sequence. -/
theorem wellFormedUtf8_induction {motive : ∀ s, WellFormedUtf8 s → Prop}
    (nil : motive [] wellFormedUtf8_nil)
    (append : ∀ e t (he : isEncoding e = true) (ht : WellFormedUtf8 t), motive t ht →
      motive (e ++ t) ((wellFormedUtf8_append_iff he).2 ht))
    (s : List Byte) (h : WellFormedUtf8 s) : motive s h := by
  obtain ⟨es, all, rfl⟩ := h
  induction es with
  | nil => exact nil
  | cons e es ih =>
    rw [List.forall_mem_cons] at all
    exact append e es.flatten all.1 ⟨es, all.2, rfl⟩ (ih all.2)

/-! ## Code-point boundaries -/

/-- The boundary before the first byte. -/
theorem boundary_zero (s : List Byte) : Boundary s 0 := .inl rfl

/-- Inside the first encoding there is no boundary. -/
theorem boundary_append_of_lt {e t : List Byte} (he : isEncoding e = true) {k : Nat} (inside : k < e.length) :
    Boundary (e ++ t) k ↔ k = 0 := by
  refine ⟨fun h => ?_, .inl⟩
  by_contra pos
  have continues := isContinuation_of_isEncoding he (Nat.pos_of_ne_zero pos) inside
  rcases h with zero | all | ⟨b, at_k, lead⟩
  · exact pos zero
  · rw [List.length_append] at all
    omega
  · rw [List.getElem?_append_left inside, List.getElem?_eq_getElem inside] at at_k
    obtain rfl := Option.some.inj at_k
    exact absurd continues (by simp [lead])

/-- From the first encoding on, the boundaries are those of the rest. -/
theorem boundary_append_of_le {e t : List Byte} (he : isEncoding e = true) (ht : WellFormedUtf8 t) {k : Nat}
    (beyond : e.length ≤ k) : Boundary (e ++ t) k ↔ Boundary t (k - e.length) := by
  have := isEncoding_length he
  rw [Boundary, Boundary, List.getElem?_append_right beyond, List.length_append]
  obtain ⟨i, rfl⟩ := Nat.exists_eq_add_of_le beyond
  rw [Nat.add_sub_cancel_left]
  constructor
  · rintro (zero | all | lead)
    · omega
    · exact .inr (.inl (by omega))
    · exact .inr (.inr lead)
  · rintro (rfl | all | lead)
    · rcases wellFormedUtf8_iff.1 ht with rfl | ⟨f, u, hf, -, rfl⟩
      · exact .inr (.inl rfl)
      · exact .inr (.inr (isEncoding_head hf u))
    · exact .inr (.inl (by omega))
    · exact .inr (.inr lead)

/-- A prefix that stops inside an encoding is not well-formed, unless it is empty. -/
theorem wellFormedUtf8_take_encoding_iff {e : List Byte} (he : isEncoding e = true) {k : Nat}
    (inside : k < e.length) : WellFormedUtf8 (e.take k) ↔ k = 0 := by
  refine ⟨fun h => ?_, fun zero => zero ▸ wellFormedUtf8_nil⟩
  rcases wellFormedUtf8_iff.1 h with nil | ⟨f, t, hf, -, eq⟩
  · rwa [← List.length_eq_zero_iff, List.length_take_of_le inside.le] at nil
  · obtain ⟨rfl, -⟩ : e = f ∧ [] = t ++ e.drop k :=
      isEncoding_append_inj he hf
        (by rw [List.append_nil, ← List.append_assoc, ← eq, List.take_append_drop])
    have := congrArg List.length eq
    rw [List.length_take, List.length_append] at this
    omega

/-- R61: the well-formed prefixes of well-formed UTF-8 are those that end at a boundary. -/
theorem wellFormedUtf8_take_iff {s : List Byte} (h : WellFormedUtf8 s) {k : Nat} (inside : k ≤ s.length) :
    WellFormedUtf8 (s.take k) ↔ Boundary s k := by
  induction s, h using wellFormedUtf8_induction generalizing k with
  | nil =>
    obtain rfl := Nat.le_zero.1 inside
    exact iff_of_true wellFormedUtf8_nil (boundary_zero _)
  | append e t he ht ih =>
    rcases Nat.lt_or_ge k e.length with lt | ge
    · rw [boundary_append_of_lt he lt, List.take_append_of_le_length lt.le,
        wellFormedUtf8_take_encoding_iff he lt]
    · have inside_rest : k - e.length ≤ t.length := by
        rw [List.length_append] at inside
        omega
      rw [boundary_append_of_le he ht ge, List.take_append, List.take_of_length_le ge,
        wellFormedUtf8_append_iff he, ih inside_rest]

/-- R61, fact (iii): of four consecutive bytes of well-formed UTF-8, one begins an encoding. -/
theorem boundary_within_three {s : List Byte} (h : WellFormedUtf8 s) {k : Nat} (inside : k < s.length) :
    ∃ j, j ≤ k ∧ k ≤ j + 3 ∧ Boundary s j := by
  induction s, h using wellFormedUtf8_induction generalizing k with
  | nil => exact absurd inside (Nat.not_lt_zero k)
  | append e t he ht ih =>
    have := isEncoding_length he
    rcases Nat.lt_or_ge k e.length with lt | ge
    · exact ⟨0, by omega, by omega, boundary_zero _⟩
    · have inside_rest : k - e.length < t.length := by
        rw [List.length_append] at inside
        omega
      obtain ⟨j, le, near, boundary⟩ := ih inside_rest
      refine ⟨e.length + j, by omega, by omega, ?_⟩
      rwa [boundary_append_of_le he ht (by omega), Nat.add_sub_cancel_left]

/-- Settles O12: the cut is the last boundary up to 63, and the boundaries are where the well-formed
prefixes end. -/
theorem truncationKeepsUtf8 : Obligations.TruncationKeepsUtf8 := by
  intro s
  have pre := List.prefix_iff_eq_take.1 (trunc63_prefix s)
  refine ⟨pre, trunc63_length_le s, trunc63_of_le, boundary_trunc63_length s, fun h => ⟨?_, ?_, ?_⟩⟩
  · rw [pre]
    exact (wellFormedUtf8_take_iff h (trunc63_prefix s).length_le).2 (boundary_trunc63_length s)
  · exact fun k inside le prefix_wf =>
      le_trunc63_length_of_boundary ((wellFormedUtf8_take_iff h inside).1 prefix_wf) inside le
  · intro long
    obtain ⟨j, le, near, boundary⟩ := boundary_within_three h long
    have := le_trunc63_length_of_boundary boundary (by omega) le
    omega

end Sys2Proof.Safety
end

section
/-! The root layer as `WRROOT` leaves it in `TX` (42_root_layer.md R70, R71). -/

namespace Sys2Proof.Safety

open Machine

/-- Settles O31: `TX` reads as if the 38 bytes of the root layer were written at 0 in one run. -/
theorem wrrootWritesRootLayer : Obligations.WrrootWritesRootLayer := by
  refine fun total s large _ => ⟨rootLayer_length .., fun a inside => ?_, fun a beyond => ?_,
    wrRoot_frame total s⟩
  · rw [wrRoot_read large, Memory.read_writeBytes, rootLayer_length, if_pos (by omega), Nat.sub_zero]
  · exact (wrRoot_read large s a).trans
      (Memory.read_writeBytes_outside _ _ _ _ (.inr (by rwa [rootLayer_length, Nat.zero_add])))

end Sys2Proof.Safety
end

section
/-! The framing layer as `WRFRAME` leaves it in `TX` (43_framing_layer.md R73). -/

namespace Sys2Proof.Safety

open Machine

/-- Settles O32: `WRFRAME` writes the 77 bytes of the framing layer at 38 in one run. -/
theorem wrframeWritesFramingLayer : Obligations.WrframeWritesFramingLayer := by
  refine fun total seq s large _ => ⟨framingLayer_length .., fun a low high => ?_, fun a outside => ?_,
    wrFrame_frame total seq s⟩
  · rw [wrFrame_run large, setTx_tx, Memory.read_writeBytes, framingLayer_length, if_pos ⟨low, high⟩]
  · rw [wrFrame_run large, setTx_tx,
      Memory.read_writeBytes_outside _ _ _ _ (by rwa [framingLayer_length])]

end Sys2Proof.Safety
end

section
/-! The DMP layer as `WRDMP` leaves it in `TX` (44_dmp_layer.md R78). -/

namespace Sys2Proof.Safety

open Machine

/-- Settles O33: `WRDMP` writes the 11 + n bytes of the DMP layer at 115 in one run, which therefore
ends where the packet of total 126 + n does. -/
theorem wrdmpWritesDmpLayer : Obligations.WrdmpWritesDmpLayer := by
  intro total dmx s _ exact_total
  have large : 126 ≤ total.toNat := by omega
  have run_end : 115 + (dmpLayer total.toNat dmx).length = 126 + dmx.length := by
    rw [dmpLayer_length, ← Nat.add_assoc]
  refine ⟨dmpLayer_length .., fun a low high => ?_, fun a outside => ?_, wrDmp_frame total dmx s⟩
  · rw [wrDmp_run large, setTx_tx, Memory.read_writeBytes, run_end, if_pos ⟨low, high⟩]
  · rw [wrDmp_run large, setTx_tx, Memory.read_writeBytes_outside _ _ _ _ (by rwa [run_end])]

end Sys2Proof.Safety
end

section
/-! The packet assembler and `FRAME` (45_assembler.md R81 to R85). -/

namespace Sys2Proof.Safety

open Machine

/-! ## What `ASSEMBLE` leaves -/

theorem assemble_txValid (dmx : List Byte) (seq : Byte) (s : State) :
    (assemble dmx seq s).txValid = true := rfl

theorem assemble_txLen (dmx : List Byte) (seq : Byte) (s : State) :
    (assemble dmx seq s).txLen = (totalLength dmx.length).setWidth 10 := rfl

/-- R81: every total the block uses fits the ten bits of `TXLEN`. -/
theorem assemble_txLen_toNat {dmx : List Byte} (h : dmx.length ≤ 512) (seq : Byte) (s : State) :
    (assemble dmx seq s).txLen.toNat = 126 + dmx.length := by
  rw [assemble_txLen, BitVec.toNat_setWidth, totalLength_toNat h, Nat.mod_eq_of_lt (by omega)]

theorem setTxInfo_setTx (valid : Bool) (len : BitVec 10) (m : Memory) (s : State) :
    setTxInfo valid len (setTx m s) = { s with tx := m, txLen := len, txValid := valid } := rfl

/-- `ASSEMBLE` writes `TX`, `TXLEN` and `TXVALID` and nothing else. -/
theorem assemble_eq_update (dmx : List Byte) (seq : Byte) (s : State) :
    assemble dmx seq s =
      { s with tx := (assemble dmx seq s).tx, txLen := (assemble dmx seq s).txLen, txValid := true } := by
  rw [assemble_txLen, ← setTxInfo_setTx]
  exact assemble_frame dmx seq s

/-- `TX[0 .. TXLEN−1]` is a given byte sequence when each of its bytes reads so. -/
theorem txBytes_eq_of_read {t : State} {bs : List Byte} (len : t.txLen.toNat = bs.length)
    (h : ∀ a, a < bs.length → t.tx.read a = bs[a]?) : txBytes t = bs := by
  have run : txRun t 0 bs.length = bs.map some :=
    txRun_eq_map_some fun a inside => by rw [Nat.zero_add, h a inside]
  calc txBytes t = (txRun t 0 bs.length).filterMap id := by simp [txBytes, txRun, len]
    _ = bs := by simp [run]

/-- R82: the packet is the whole of `TX[0 .. TXLEN−1]`. -/
theorem txBytes_assemble {dmx : List Byte} (h : dmx.length ≤ 512) (seq : Byte) (s : State) :
    txBytes (assemble dmx seq s) = packet s dmx seq :=
  txBytes_eq_of_read (by rw [assemble_txLen_toNat h, packet_length])
    fun a _ => assemble_tx_read h seq s a

/-- Settles O34: the packet's bytes and its length, and the frame of the assembler. -/
theorem assembleEqualsPacketExpression : Obligations.AssembleEqualsPacketExpression :=
  fun dmx seq s fits => ⟨packet_length s dmx seq, fun a _ => assemble_tx_read fits seq s a,
    assemble_txLen_toNat fits seq s, txBytes_assemble fits seq s, assemble_eq_update dmx seq s⟩

/-! ## `FRAME` -/

/-- R85: every operand value of `FRAME` decodes, since format F has no must-be-zero bits. -/
theorem decode_formatF_frame (seq : Byte) (n : Half) :
    decode (formatF 0x11#8 seq n) = .ok (.frame seq n) := by
  obtain ⟨hi, lo, rfl⟩ := half_of_bytes n
  rw [formatF, bytes_append_half, decode_bytes]
  simp

/-- An error of `FRAME` or `SEND` withdraws the packet and sets `STATUS` (60_exceptions.md R109). -/
theorem raise_framesPacket_eq {i : Instr} (h : i.framesPacket = true) (e : Status) (s : State) :
    raise (some i) e s = .next { s with txValid := false, txLen := 0#10, status := e } :=
  raise_of_framesPacket (cmd := some i) h e s

theorem execFrame_errLen {s : State} (ready : s.phase = .ready) (seq : Byte) {n : Half}
    (long : 512 < n.toNat) :
    exec (.frame seq n) s = .next { s with txValid := false, txLen := 0#10, status := .errLen } :=
  ((requirePhase_of_eq ready ..).trans (if_pos long)).trans (raise_framesPacket_eq rfl ..)

theorem execFrame_errPhase {s : State} (config : s.phase = .config) (seq : Byte) (n : Half) :
    exec (.frame seq n) s = .next { s with txValid := false, txLen := 0#10, status := .errPhase } :=
  (requirePhase_of_ne (by simp [config]) ..).trans (raise_framesPacket_eq rfl ..)

theorem channelData_length (s : State) (n : Half) : (channelData s n).length = n.toNat :=
  memRead_length ..

/-- Settles O24: the word is the format F word of opcode 0x11; `FRAME` is `ASSEMBLE` of `IN[0..n−1]`
followed by the status, or one of its two errors. -/
theorem frameAssemblesPacket : Obligations.FrameAssemblesPacket := by
  refine ⟨fun seq n => ?_, fun seq n s => ⟨fun ready short => ?_,
    fun ready long => execFrame_errLen ready seq long, fun config => execFrame_errPhase config seq n⟩⟩
  · rw [← decode_formatF_frame, formatF_eq_or]
    rfl
  · have fits : (channelData s n).length ≤ 512 := (channelData_length s n).trans_le short
    refine ⟨_, execFrame_next ready seq short, fun a _ => assemble_tx_read fits seq s a, ?_,
      congrArg (setStatus .ok) (assemble_eq_update ..)⟩
    rw [setStatus_txLen, assemble_txLen_toNat fits, channelData_length]

/-! ## Purity -/

/-- The channel data is the same where `IN` reads the same. -/
theorem channelData_congr {s t : State} {n : Half} (h : ∀ a, a < n.toNat → inByte s a = inByte t a) :
    channelData s n = channelData t n := by
  rw [channelData_eq, channelData_eq]
  exact List.map_congr_left fun a inside => h a (List.mem_range.1 inside)

/-- Settles O28: both states assemble the same channel data, and `ASSEMBLE` reads of a state only what
they agree on. -/
theorem framedPacketIsPure : Obligations.FramedPacketIsPure := by
  intro seq n s s' ready ready' short cid name prio sync opt univ adj input
  have same : channelData s n = channelData s' n := channelData_congr input
  have fits : (channelData s n).length ≤ 512 := (channelData_length s n).trans_le short
  have size : (packet s (channelData s n) seq).length = 126 + n.toNat := by
    rw [packet_length, channelData_length]
  refine ⟨_, _, execFrame_next ready seq short, execFrame_next ready' seq short, fun a inside => ⟨?_, ?_⟩,
    ?_, ?_⟩
  · rw [setStatus_tx, assemble_tx_read fits, List.getElem?_eq_getElem (size ▸ inside),
      Option.isSome_some]
  · rw [setStatus_tx, setStatus_tx, ← same, assemble_tx_congr _ seq cid name prio sync opt univ adj]
  · rw [setStatus_txLen, setStatus_txLen, assemble_txLen, assemble_txLen, same]
  · rw [setStatus_txValid, setStatus_txValid, assemble_txValid, assemble_txValid]

end Sys2Proof.Safety
end

section
/-! The words of formats I16, I8 and O (30_encoding.md R43) as an opcode with its operand in the low bits,
and that the decoder reads every command back from its word. -/

namespace Sys2Proof

open Safety

/-- Format I16 is format F with the byte 0. -/
theorem formatI16_eq_or (op : Byte) (imm : Half) :
    formatI16 op imm = (op ++ 0#24 : Word) ||| imm.setWidth 32 := by
  calc formatI16 op imm = formatF op 0#8 imm := rfl
    _ = (op ++ 0#24 : Word) ||| imm.setWidth 32 := by
      rw [formatF_eq_or]
      simp

/-- Formats I8 and O are format I16 with an operand below 256. -/
theorem formatI8_eq_or (op imm : Byte) :
    formatI8 op imm = (op ++ 0#24 : Word) ||| imm.setWidth 32 := by
  have extended : (0#8 ++ imm : Half).setWidth 32 = imm.setWidth 32 := by
    rw [← show imm.setWidth 16 = 0#8 ++ imm from BitVec.setWidth_eq_append (by decide)]
    exact BitVec.setWidth_setWidth (by decide)
  calc formatI8 op imm = formatI16 op (0#8 ++ imm) := (bytes_append_half ..).symm
    _ = (op ++ 0#24 : Word) ||| imm.setWidth 32 := by rw [formatI16_eq_or, extended]

/-- R43 to R46: every well-formed command is read back from its word, at every value of its operands. -/
theorem decode_encode {i : Instr} (wf : i.wellFormed = true) : decode (encode i) = .ok i := by
  cases i with
  | ldcid | commit | nextseq => rfl
  | ldname imm | setuniv imm | setsync imm | send imm | mcaddr imm =>
    obtain ⟨hi, lo, rfl⟩ := half_of_bytes imm
    rw [encode, formatI16, bytes_append_half, decode_bytes]
    simp
  | setprio p =>
    rw [encode, formatI8, decode_bytes]
    simp
  | setopt mask =>
    rw [encode, formatI8, decode_bytes]
    simp [(maskWellFormed_iff mask).1 wf]
  | frame seq n => exact decode_formatF_frame seq n
  | packfl flags len => exact decode_formatF_packfl flags len

/-- The word may be given in another form than the encoder's. -/
theorem decode_of_encode_eq {i : Instr} {w : Word} (wf : i.wellFormed = true) (word : encode i = w) :
    decode w = .ok i :=
  word ▸ decode_encode wf

end Sys2Proof
end

section
/-! The configuration commands of the sender (46_sender.md R88 to R93): accepted in CONFIG, and in READY
an error that changes `STATUS` only. -/

namespace Sys2Proof.Machine

/-! ## The phase check -/

/-- An error of a command that frames no packet writes `STATUS` and nothing else (60_exceptions.md R109). -/
theorem raise_not_framesPacket_eq {i : Instr} (h : i.framesPacket = false) (e : Status) (s : State) :
    raise (some i) e s = .next { s with status := e } :=
  raise_of_not_framesPacket (cmd := some i) h e s

/-- 10_state.md R21: a configuration command in READY. -/
theorem requirePhase_config_of_ready {s : State} (ready : s.phase = .ready) {i : Instr}
    (h : i.framesPacket = false) (rest : Host.Outcome State Fault Refusal) :
    requirePhase .config i s rest = .next { s with status := .errPhase } :=
  (requirePhase_of_ne (by simp [ready]) ..).trans (raise_not_framesPacket_eq h ..)

/-- 10_state.md R21: a packet command that frames no packet, in CONFIG. -/
theorem requirePhase_ready_of_config {s : State} (config : s.phase = .config) {i : Instr}
    (h : i.framesPacket = false) (rest : Host.Outcome State Fault Refusal) :
    requirePhase .ready i s rest = .next { s with status := .errPhase } :=
  (requirePhase_of_ne (by simp [config]) ..).trans (raise_not_framesPacket_eq h ..)

/-! ## `LDCID`, `SETUNIV`, `SETPRIO`, `SETSYNC` -/

/-- R88: the sixteen bytes that `LDCID` loads. -/
theorem cidOperand_getElem (s : State) {i : Nat} (h : i < 16) : (cidOperand s)[i] = inByte s i := by
  have bytes : (cidOperand s).toList = memRead s 0 16 := toBytes_toList_of_length (memRead_length ..)
  have read : (memRead s 0 16)[i]? = some (inByte s i) := by
    rw [memRead_getElem?, if_pos h, Nat.zero_add]
  rw [← bytes] at read
  simpa [h] using read

/-- Settles O15: the operand of `LDCID` is `IN[0..15]`. -/
theorem ldcidLoadsComponentIdentifier : Obligations.LdcidLoadsComponentIdentifier :=
  ⟨decode_encode (i := .ldcid) rfl, fun s =>
    ⟨fun config => ⟨_, requirePhase_of_eq config .., fun _ h => cidOperand_getElem s h, rfl⟩,
      fun ready => requirePhase_config_of_ready ready rfl _⟩⟩

/-- Settles O17: no value of the operand is refused, neither by the decoder nor by the command. -/
theorem setunivStoresUniverse : Obligations.SetunivStoresUniverse :=
  fun u => ⟨decode_of_encode_eq rfl (formatI16_eq_or 0x03#8 u), fun _ =>
    ⟨fun config => requirePhase_of_eq config .., fun ready => requirePhase_config_of_ready ready rfl _⟩⟩

/-- Settles O18: the operand of `SETPRIO` is the low byte of its word. -/
theorem setprioStoresPriority : Obligations.SetprioStoresPriority :=
  fun p => ⟨decode_of_encode_eq rfl (formatI8_eq_or 0x04#8 p), fun _ =>
    ⟨fun config => requirePhase_of_eq config .., fun ready => requirePhase_config_of_ready ready rfl _⟩⟩

/-- Settles O19: `SETSYNC` is the I16 word of opcode 0x05. -/
theorem setsyncStoresSyncUniverse : Obligations.SetsyncStoresSyncUniverse :=
  fun v => ⟨decode_of_encode_eq rfl (formatI16_eq_or 0x05#8 v), fun _ =>
    ⟨fun config => requirePhase_of_eq config .., fun ready => requirePhase_config_of_ready ready rfl _⟩⟩

/-! ## `SETOPT` -/

/-- The mask of `SETOPT` that assigns `o` is its options byte: `OPT` is read back from the bits at which
`OPTBYTE` puts the flags (43_framing_layer.md R75; R92). -/
theorem optOperand_optByte (o : Opt) : optOperand (optByte o) = o := by
  simp (disch := decide) only [optOperand, optByte_getLsbD]
  simp

/-- The options byte has none of the bits 0x8F. -/
theorem maskWellFormed_optByte (o : Opt) : maskWellFormed (optByte o) = true := by
  obtain ⟨p, t, f⟩ := o
  revert p t f
  decide

/-- The options byte in a word: each flag shifted to its own bit there. -/
theorem setWidth_optByte (o : Opt) : (optByte o).setWidth 32 =
    (BitVec.ofBool o.p).setWidth 32 <<< 6 ||| (BitVec.ofBool o.t).setWidth 32 <<< 5
      ||| (BitVec.ofBool o.f).setWidth 32 <<< 4 := by
  obtain ⟨p, t, f⟩ := o
  revert p t f
  decide

/-- R46 (b), R92: a mask with one of the bits 0x8F makes the word illegal. -/
theorem runWord_setopt_reserved {mask : Byte} (reserved : mask &&& 0x8F#8 ≠ 0#8) (s : State) :
    runWord (formatI8 0x06#8 mask) s = .next { s with status := .errIllegal } := by
  have illegal : Safety.NonzeroReserved (formatI8 0x06#8 mask) :=
    (nonzeroReserved_bytes ..).2 (.inr (.inr (.inr ⟨rfl, fun zero => reserved zero.2⟩)))
  obtain ⟨e, he⟩ := (decode_error_iff _).2 (.inr illegal)
  exact runWord_of_error he s

/-- Settles O20: the mask that assigns three flags is their options byte, and every mask with another bit
is rejected by the decoder, before any phase check. -/
theorem setoptAssignsThreeFlags : Obligations.SetoptAssignsThreeFlags := by
  refine ⟨fun p t f => ⟨optByte ⟨p, t, f⟩, ?_, fun s => ⟨fun config => ?_, fun ready => ?_⟩⟩,
    fun mask s reserved => ?_⟩
  · refine decode_of_encode_eq (maskWellFormed_optByte _) ((formatI8_eq_or ..).trans ?_)
    rw [setWidth_optByte, ← BitVec.or_assoc, ← BitVec.or_assoc]
    rfl
  · calc exec (.setopt (optByte ⟨p, t, f⟩)) s
        = succeed (setOpt (optOperand (optByte ⟨p, t, f⟩)) s) := requirePhase_of_eq config ..
      _ = .next { s with opt := ⟨p, t, f⟩, status := .ok } := by rw [optOperand_optByte]; rfl
  · exact requirePhase_config_of_ready ready rfl _
  · rw [← runWord_setopt_reserved reserved, formatI8_eq_or]
    rfl

/-! ## `COMMIT` -/

/-- 10_state.md R20: `COMMIT` looks at the three set-flags. -/
theorem configured_iff (s : State) :
    configured s = true ↔ s.cidSet = true ∧ s.nameSet = true ∧ s.univSet = true := by
  rw [configured, Bool.and_eq_true, Bool.and_eq_true, and_assoc]

theorem configured_eq_false_iff (s : State) :
    configured s = false ↔ s.cidSet = false ∨ s.nameSet = false ∨ s.univSet = false := by
  rw [configured, Bool.and_eq_false_iff, Bool.and_eq_false_iff, or_assoc]

/-- Settles O21: the phase check, then the three set-flags at once. -/
theorem commitEntersReady : Obligations.CommitEntersReady := by
  refine ⟨decode_encode (i := .commit) rfl, fun s => ⟨fun config cid name univ => ?_,
    fun config missing => ?_, fun ready => requirePhase_config_of_ready ready rfl _⟩⟩
  · exact (requirePhase_of_eq config ..).trans (if_pos ((configured_iff s).2 ⟨cid, name, univ⟩))
  · have unset : configured s = false := (configured_eq_false_iff s).2 missing
    exact ((requirePhase_of_eq config ..).trans (if_neg (Bool.eq_false_iff.1 unset))).trans
      (raise_not_framesPacket_eq rfl ..)

end Sys2Proof.Machine
end

section
/-! The multicast address, the sequence counter and `SEND` (46_sender.md R94 to R98). -/

namespace Sys2Proof.Safety

open Machine

/-! ## The multicast address -/

/-- R54: the bytes of two halves side by side. -/
theorem be_append_half (a b : Half) : be 4 (a ++ b : Word) = be 2 a ++ be 2 b := by
  have upper : ∀ k, 16 ≤ k → (a ++ b : Word).extractLsb' k 8 = a.extractLsb' (k - 16) 8 :=
    fun _ => BitVec.extractLsb'_append_eq_of_le
  have lower : ∀ k, k + 8 ≤ 16 → (a ++ b : Word).extractLsb' k 8 = b.extractLsb' k 8 :=
    fun _ => BitVec.extractLsb'_append_eq_of_add_le
  rw [be_four, be_two, be_two, upper 24 (by decide), upper 16 (by decide), lower 8 (by decide),
    lower 0 (by decide)]
  rfl

/-- R96: 239.255 above the universe number. -/
theorem mcast_eq_append (u : Half) : mcast u = 0xEFFF#16 ++ u := by
  calc mcast u = (0xEFFF#16 ++ 0#16) ||| (0#16 ++ u) := congrArg _ (setWidth_half u)
    _ = (0xEFFF#16 ||| 0#16) ++ (0#16 ||| u) := BitVec.or_append
    _ = 0xEFFF#16 ++ u := by rw [BitVec.or_zero, BitVec.zero_or]

/-- Settles O9: the upper two octets are those of the base, the lower two those of the universe. -/
theorem multicastAddressOctets : Obligations.MulticastAddressOctets := by
  refine fun u => ⟨rfl, ?_⟩
  rw [mcast_eq_append, be_append_half, be_two u]
  rfl

/-- Settles O29: the word is the I16 word of opcode 0x13, and there is no phase check. -/
theorem mcaddrComputesAddress : Obligations.McaddrComputesAddress :=
  fun u => ⟨decode_of_encode_eq rfl (formatI16_eq_or 0x13#8 u), fun s => succeed_eq (setResult (mcast u) s)⟩

/-! ## The sequence counter -/

/-- R94: the counter wraps from 255 to 0. -/
theorem nextSeq_toNat (q : Byte) : (q + 1#8).toNat = (q.toNat + 1) % 256 := BitVec.toNat_add ..

/-- Settles O22: `SEQ` and `RESULT` receive one value, which fits the byte. -/
theorem nextseqAdvancesCounter : Obligations.NextseqAdvancesCounter := by
  refine ⟨decode_encode (i := .nextseq) rfl, fun s => ⟨fun ready => ?_,
    fun config => requirePhase_ready_of_config config rfl _⟩⟩
  refine ⟨_, requirePhase_of_eq ready .., nextSeq_toNat s.seq, ?_, rfl⟩
  calc ((s.seq + 1#8).setWidth 32).toNat = (s.seq + 1#8).toNat :=
        BitVec.toNat_setWidth_of_le (by decide)
    _ = (s.seq.toNat + 1) % 256 := nextSeq_toNat s.seq

/-! ## `SEND` -/

theorem execSend_errLen {s : State} (ready : s.phase = .ready) {n : Half} (long : 512 < n.toNat) :
    exec (.send n) s = .next { s with txValid := false, txLen := 0#10, status := .errLen } :=
  ((requirePhase_of_eq ready ..).trans (if_pos long)).trans (raise_framesPacket_eq rfl ..)

theorem execSend_errPhase {s : State} (config : s.phase = .config) (n : Half) :
    exec (.send n) s = .next { s with txValid := false, txLen := 0#10, status := .errPhase } :=
  (requirePhase_of_ne (by simp [config]) ..).trans (raise_framesPacket_eq rfl ..)

/-- R98: what is handed over after `ASSEMBLE` is the packet, to the address of the universe. -/
theorem handOver_assemble {dmx : List Byte} (h : dmx.length ≤ 512) (seq : Byte) (s : State) :
    handOver (assemble dmx seq s) =
      logDatagram ⟨mcast s.univ, packet s dmx seq⟩ (assemble dmx seq s) := by
  rw [handOver, txBytes_assemble h, congrArg State.univ (assemble_eq_update ..)]

/-- `ASSEMBLE` after the sequence counter is advanced: it reads its operand, not `SEQ`. -/
theorem assemble_setSeq (dmx : List Byte) (seq : Byte) (s : State) :
    assemble dmx seq (setSeq seq s) =
      { s with seq := seq, tx := (assemble dmx seq s).tx, txLen := (assemble dmx seq s).txLen,
               txValid := true } := by
  rw [assemble_eq_update, assemble_txLen, assemble_txLen,
    assemble_tx_congr (s := setSeq seq s) (t := s) dmx seq rfl rfl rfl rfl rfl rfl rfl]
  rfl

/-- R95: the whole next state of `SEND` in READY with at most 512 channel bytes. -/
theorem execSend_eq {s : State} (ready : s.phase = .ready) {n : Half} (short : n.toNat ≤ 512) :
    exec (.send n) s = .next
      { s with seq := s.seq + 1#8, tx := (assemble (channelData s n) (s.seq + 1#8) s).tx,
               txLen := (assemble (channelData s n) (s.seq + 1#8) s).txLen, txValid := true,
               txLog := s.txLog ++ [⟨mcast s.univ, packet s (channelData s n) (s.seq + 1#8)⟩],
               status := .ok } := by
  rw [execSend_next ready short, handOver_assemble ((channelData_length s n).trans_le short),
    assemble_setSeq]
  rfl

/-- Settles O25: `SEND` is `NEXTSEQ_FN`, `ASSEMBLE` and the hand-over, or one of the two errors of
`FRAME`. -/
theorem sendEmitsDatagram : Obligations.SendEmitsDatagram := by
  refine ⟨fun n => decode_of_encode_eq rfl (formatI16_eq_or 0x12#8 n), fun n s => ⟨fun ready short => ?_,
    fun ready long => execSend_errLen ready long, fun config => execSend_errPhase config n⟩⟩
  have fits : (channelData s n).length ≤ 512 := (channelData_length s n).trans_le short
  refine ⟨_, execSend_eq ready short, nextSeq_toNat s.seq,
    fun a _ => assemble_tx_read fits (s.seq + 1#8) s a, ?_, rfl, rfl⟩
  rw [assemble_txLen_toNat fits, channelData_length]

end Sys2Proof.Safety
end

section
/-! What a failed command word changes (60_exceptions.md R109): its run is the one entry `raise`, for the
command the word decodes to, if any. -/

namespace Sys2Proof.Machine

/-- The command of a word, if it has one, is `FRAME` or `SEND` as the word decodes. -/
theorem any_framesPacket_iff (w : Word) :
    (decode w).toOption.any Instr.framesPacket = true ↔
      (∃ seq n, decode w = .ok (.frame seq n)) ∨ ∃ n, decode w = .ok (.send n) := by
  cases decode w with
  | error e => simp [Except.toOption]
  | ok i => cases i <;> simp [Except.toOption, Instr.framesPacket]

/-- A command that ends with an error raised it on the state it started from: all checks precede all
writes. -/
theorem exec_eq_raise {i : Instr} {s t : State} (run : exec i s = .next t) (failed : t.status ≠ .ok) :
    raise (some i) t.status s = .next t := by
  rcases exec_cases i s with ⟨u, -, succeeded⟩ | ⟨e, -, raised⟩
  · cases succeeded.symm.trans run
    exact absurd rfl failed
  · have left : raise (some i) e s = .next t := raised.symm.trans run
    cases left
    rfl

/-- A word that ends with an error raised it for the command it decodes to, or for none. -/
theorem runWord_eq_raise {w : Word} {s t : State} (run : runWord w s = .next t)
    (failed : t.status ≠ .ok) : raise (decode w).toOption t.status s = .next t := by
  rcases runWord_cases w s with ⟨i, decoded, ran⟩ | ⟨e, illegal, raised⟩
  · rw [decoded]
    exact exec_eq_raise (ran.symm.trans run) failed
  · rw [illegal]
    cases raised.symm.trans run
    rfl

/-- Settles O37: every word completes, and one that fails is a `raise`, whose two forms are the two
clauses. -/
theorem errorsChangeNothingElse : Obligations.ErrorsChangeNothingElse := by
  intro w s
  obtain ⟨t, run⟩ := runWord_next w s
  refine ⟨t, run, fun failed => ?_⟩
  have raised := runWord_eq_raise run failed
  rw [← any_framesPacket_iff, Bool.not_eq_true]
  refine ⟨fun packet => ?_, fun other => ?_⟩
  · exact Host.Outcome.next.inj (raised.symm.trans (raise_of_framesPacket packet ..))
  · exact Host.Outcome.next.inj (raised.symm.trans (raise_of_not_framesPacket other ..))

end Sys2Proof.Machine
end

section
/-! Decoding and encoding are inverse to each other, and the rows of the opcode map (30_encoding.md R43 to
R46). -/

namespace Sys2Proof

open Machine Safety

/-! ## The two directions -/

/-- Settles O1: the decoder reads each command back from its format, operand by operand. -/
theorem decodeOfEncode : Obligations.DecodeOfEncode := fun _ wf => decode_encode wf

/-- What holds of the command that one test of a chain accepts, and of every one that the rest of the chain
answers, holds of the command answered. -/
theorem of_ite_eq_ok {ε α : Type} {motive : α → Prop} {p : Prop} [Decidable p] {i j : α}
    {rest : Except ε α} (answer : (if p then .ok i else rest) = .ok j) (accepted : p → motive i)
    (later : rest = .ok j → motive j) : motive j := by
  by_cases h : p
  · rw [if_pos h] at answer
    cases answer
    exact accepted h
  · rw [if_neg h] at answer
    exact later answer

/-- R43 to R46: a word that decodes is the one encoding of a well-formed command, because each row of the
opcode map fixes every bit that is no operand. -/
theorem encode_of_decode {w : Word} {i : Instr} (decoded : decode w = .ok i) :
    encode i = w ∧ i.wellFormed = true := by
  obtain ⟨o, a, b, c, rfl⟩ := word_of_bytes w
  rw [decode_bytes] at decoded
  have test := @of_ite_eq_ok Illegal Instr fun i => encode i = o ++ a ++ b ++ c ∧ i.wellFormed = true
  refine test decoded ?ldcid fun d => test d ?ldname fun d => test d ?setuniv fun d => test d ?setprio
    fun d => test d ?setsync fun d => test d ?setopt fun d => test d ?commit fun d => test d ?nextseq
    fun d => test d ?frame fun d => test d ?send fun d => test d ?mcaddr fun d => test d ?packfl nofun
  case ldcid | commit | nextseq =>
    rintro ⟨rfl, rfl, rfl, rfl⟩
    exact ⟨rfl, rfl⟩
  case ldname | setuniv | setsync | send | mcaddr =>
    rintro ⟨rfl, rfl⟩
    exact ⟨bytes_append_half .., rfl⟩
  case setprio =>
    rintro ⟨rfl, rfl, rfl⟩
    exact ⟨rfl, rfl⟩
  case setopt =>
    rintro ⟨⟨rfl, rfl, rfl⟩, reserved⟩
    exact ⟨rfl, (maskWellFormed_iff c).2 reserved⟩
  case frame | packfl =>
    rintro rfl
    exact ⟨bytes_append_half .., rfl⟩

/-- Settles O2: the word is its bytes, and the decoder looks at each one that is no operand. -/
theorem encodeOfDecode : Obligations.EncodeOfDecode := fun _ _ => encode_of_decode

/-- Settles O5: each word is the encoding of its command. -/
theorem sampleWordsDecode : Obligations.SampleWordsDecode :=
  ⟨decode_of_encode_eq rfl rfl, decode_of_encode_eq rfl rfl, decode_of_encode_eq rfl rfl,
    decode_of_encode_eq rfl rfl, decode_of_encode_eq rfl rfl, decode_of_encode_eq rfl rfl,
    decode_of_encode_eq rfl rfl, decode_of_encode_eq rfl rfl, decode_of_encode_eq rfl rfl,
    decode_of_encode_eq rfl rfl, decode_of_encode_eq rfl rfl, decode_of_encode_eq rfl rfl⟩

/-! ## The rows of the opcode map (R45) -/

/-- Every row tests all eight bits of the opcode. -/
theorem opcodeOf_mask : ∀ r ∈ opcodeTable, opcodeOf r.mask = BitVec.allOnes 8 := by decide

/-- No two rows have one opcode. -/
theorem mnemonic_eq_of_opcode_eq : ∀ r ∈ opcodeTable, ∀ r' ∈ opcodeTable,
    opcodeOf r.pattern = opcodeOf r'.pattern → r.mnemonic = r'.mnemonic := by decide

/-- A word that spells a row has its opcode. -/
theorem opcodeOf_of_spells {w : Word} {r : OpRow} (row : r ∈ opcodeTable)
    (spelled : w &&& r.mask = r.pattern) : opcodeOf w = opcodeOf r.pattern := by
  calc opcodeOf w = opcodeOf w &&& opcodeOf r.mask := by rw [opcodeOf_mask r row, BitVec.and_allOnes]
    _ = opcodeOf (w &&& r.mask) := BitVec.extractLsb'_and.symm
    _ = opcodeOf r.pattern := by rw [spelled]

/-- R46: the decoder answers the first row the word spells. -/
theorem exists_decode_eq_ok_iff (w : Word) :
    (∃ i, decode w = .ok i) ↔ ∃ r ∈ opcodeTable, w &&& r.mask = r.pattern := by
  have found : (∃ i, decode w = .ok i) ↔ (opcodeTable.find? fun r => r.spells w).isSome = true := by
    rw [decode]
    cases opcodeTable.find? fun r => r.spells w <;> simp
  simp only [found, List.find?_isSome, OpRow.spells, beq_iff_eq]

/-- Settles O3: two rows that one word spells share its opcode. -/
theorem opcodeRowsDisjoint : Obligations.OpcodeRowsDisjoint := by
  refine fun w => ⟨fun r row r' row' spelled spelled' => ?_, exists_decode_eq_ok_iff w⟩
  exact mnemonic_eq_of_opcode_eq r row r' row'
    ((opcodeOf_of_spells row spelled).symm.trans (opcodeOf_of_spells row' spelled'))

end Sys2Proof
end

section
/-! One step for each host action: what it makes of the block and what it answers (20_memory.md R34 to R36;
60_exceptions.md R100, R102; 70_reset_and_hazards.md R114, R118). -/

namespace Sys2Proof.Machine

/-! ## A step takes the oldest action -/

theorem step_of_idle {s : State} (idle : s.inbox = []) : step s = .next s := by
  rw [step, hostStep, idle]

theorem step_of_action {s : State} {act : HostAction} {later : List HostAction}
    (next : s.inbox = act :: later) : step s = takeAction act (setInbox later s) := by
  rw [step, hostStep, next]

/-- Settles O41: a step with no action to take answers the state it was given. -/
theorem idleBlockStaysAsItIs : Obligations.IdleBlockStaysAsItIs := fun _ => step_of_idle

/-! ## Command words -/

theorem runWord_of_ok {w : Word} {i : Instr} (decoded : decode w = .ok i) (s : State) :
    runWord w s = exec i s := by
  rw [runWord, decoded]

/-- A step with a command word, from the state the word leaves. -/
theorem step_of_command {s t : State} {w : Word} {later : List HostAction}
    (next : s.inbox = .command w :: later) (run : runWord w (setInbox later s) = .next t) :
    step s = .next (reply (.status t.status) t) := by
  rw [step_of_action next, takeAction, run, answerStatus]

/-- The word the host's table gives is the word the step decodes. -/
theorem decode_tableWord {v : Nat} {i : Instr} (decoded : decodeTableWord 32 v = some i) :
    decode (tableWord 32 v) = .ok i := by
  rw [decodeTableWord] at decoded
  cases h : decode (tableWord 32 v) with
  | error e => simp [h, Except.toOption] at decoded
  | ok j => simpa [h, Except.toOption] using decoded

/-- Settles O39: `withFetchWord` only puts its word before the actions to come. -/
theorem stepRunsDecodedCommand : Obligations.StepRunsDecodedCommand :=
  ⟨fun _ _ _ _ _ next decoded run => step_of_command next ((runWord_of_ok decoded _).trans run),
    fun _ _ _ _ decoded run =>
      step_of_command rfl ((runWord_of_ok (decode_tableWord decoded) _).trans run)⟩

/-- Settles O40: an illegal word raises on the state without the action. -/
theorem stepRejectsIllegalWord : Obligations.StepRejectsIllegalWord :=
  fun _ _ _ _ next illegal => step_of_command next (runWord_of_error illegal _)

/-! ## Host accesses to the memories -/

/-- `IN` after a host write: the byte written at its address, every other byte as before, listed or not. -/
theorem inByte_setIn_write (s : State) (a : Nat) (b : Byte) (c : Nat) :
    inByte (setIn (s.inMem.write a b) s) c = if c = a then b else inByte s c := by
  simp only [inByte, setIn_inMem, setIn_life, Memory.read_write]
  split <;> rfl

theorem step_of_writeIN {s : State} {a : Nat} {b : Byte} {later : List HostAction}
    (next : s.inbox = .writeIN a b :: later) (inside : a < s.params.inSize) :
    step s = .next (setIn (s.inMem.write a b) (setInbox later s)) :=
  (step_of_action next).trans (if_pos inside)

/-- Settles O42: one write to `IN`, after the address check. -/
theorem hostWriteChangesOneByte : Obligations.HostWriteChangesOneByte := by
  refine fun s a b later next => ⟨fun inside => ?_, fun outside => ?_⟩
  · have byte := inByte_setIn_write (setInbox later s) a b
    exact ⟨_, step_of_writeIN next inside, (byte a).trans (if_pos rfl),
      fun c other => (byte c).trans (if_neg other), rfl⟩
  · exact (step_of_action next).trans (if_neg (Nat.not_lt.2 outside))

theorem step_of_readTX {s : State} {a : Nat} {later : List HostAction}
    (next : s.inbox = .readTX a :: later) (inside : a ≤ 637) :
    step s = .next (reply (.byte (hostReadTX s.replies.length s a)) (setInbox later s)) :=
  (step_of_action next).trans (if_pos (Nat.lt_succ_of_le inside))

/-- R41: a host read of a listed byte of the packet answers that byte. -/
theorem hostReadTX_of_packet {s : State} {a : Nat} {v : Byte} (valid : s.txValid = true)
    (inside : a < s.txLen.toNat) (listed : s.tx.read a = some v) (k : Nat) : hostReadTX k s a = v := by
  rw [hostReadTX, if_pos ⟨valid, inside⟩, listed, Option.getD_some]

/-- Settles O43: a read answers and changes nothing else. -/
theorem hostReadTxAnswersPacketByte : Obligations.HostReadTxAnswersPacketByte :=
  fun _ _ _ next => ⟨fun inside => ⟨_, step_of_readTX next inside,
    fun valid below _ listed => hostReadTX_of_packet valid below listed _⟩,
    fun outside => (step_of_action next).trans (if_neg (Nat.not_lt.2 outside))⟩

/-! ## Host reads of registers -/

/-- R10: `OPT` as the host sees it, P the most significant bit. -/
theorem optBits_toNat (o : Opt) : (optBits o).toNat = 4 * o.p.toNat + 2 * o.t.toNat + o.f.toNat := by
  obtain ⟨p, t, f⟩ := o
  revert p t f
  decide

theorem phase_bit_toNat (p : Phase) : p.bit.toNat = if p = .ready then 1 else 0 := by
  cases p <;> rfl

theorem shownUint_flag (b : Bool) : shownUint (BitVec.ofBool b) = .uint 1 b.toNat :=
  congrArg (RegValue.uint 1) (BitVec.toNat_ofBool b)

theorem hostReadReg_setInbox (later : List HostAction) (s : State) (r : RegName) :
    hostReadReg (setInbox later s) r = hostReadReg s r := by
  cases r <;> rfl

theorem step_of_readReg {s : State} {r : RegName} {later : List HostAction}
    (next : s.inbox = .readReg r :: later) :
    step s = .next (reply (.reg (hostReadReg s r)) (setInbox later s)) := by
  rw [step_of_action next, takeAction, hostReadReg_setInbox]

/-- Settles O44: one line of `hostReadReg` for each name. -/
theorem hostReadRegAnswersRegister : Obligations.HostReadRegAnswersRegister := by
  intro s r later next
  refine ⟨hostReadReg s r, step_of_readReg next, ?cid, ?name, ?univ, ?namelen, ?prio, ?sync, ?opt, ?seq,
    ?result, ?cidset, ?nameset, ?univset, ?phase, ?status, ?txvalid, ?txlen⟩
  case cid | name =>
    rintro rfl loaded
    exact congrArg RegValue.bytes (if_pos loaded)
  case univ =>
    rintro rfl loaded
    exact congrArg shownUint (if_pos loaded)
  case namelen | prio | sync | seq | result | txlen =>
    rintro rfl
    rfl
  case cidset | nameset | univset | txvalid =>
    rintro rfl
    exact shownUint_flag _
  case opt =>
    rintro rfl
    exact congrArg (RegValue.uint 3) (optBits_toNat s.opt)
  case phase =>
    rintro rfl
    exact congrArg (RegValue.uint 1) (phase_bit_toNat s.phase)
  case status =>
    rintro rfl
    exact congrArg (RegValue.uint 3) (by cases s.status <;> rfl)

/-! ## `RESET` -/

/-- Settles O45: the step is `resetBlock` on the state without the action. -/
theorem resetActionRestoresResetValues : Obligations.ResetActionRestoresResetValues :=
  fun _ _ next => ⟨_, step_of_action next, rfl, rfl, rfl, rfl, rfl, rfl, rfl, rfl, rfl, rfl, rfl, rfl, rfl,
    rfl, rfl, rfl, rfl, rfl⟩

/-- Settles O46: the fields of `State.reset`, each a literal. -/
theorem resetStateHasSpecValues : Obligations.ResetStateHasSpecValues :=
  ⟨rfl, rfl, rfl, rfl, rfl, rfl, rfl, rfl, rfl, rfl, rfl, rfl, rfl, rfl⟩

/-! ## No step stops the block -/

/-- Settles O47: every command word completes, and the only other condition on an action is its address. -/
theorem blockNeverHalts : Obligations.BlockNeverHalts := by
  intro s inAddress txAddress
  cases next : s.inbox with
  | nil => exact ⟨_, step_of_idle next⟩
  | cons act later =>
    cases act with
    | reset | readReg r => exact ⟨_, step_of_action next⟩
    | writeIN a b => exact ⟨_, step_of_writeIN next (inAddress a b later next)⟩
    | readTX a => exact ⟨_, step_of_readTX next (txAddress a later next)⟩
    | command w =>
      obtain ⟨u, run⟩ := runWord_next w (setInbox later s)
      exact ⟨_, step_of_command next run⟩

end Sys2Proof.Machine
end

section
/-! What `TRUNC63` reads of a name, and the name field that `LDNAME` loads (41_utf8_truncation.md R64 to
R67). -/

namespace Sys2Proof.Safety

open Machine

/-! ## The truncation reads 64 bytes -/

/-- The scan back from index 63 sees the first 64 bytes only. -/
theorem scanBack_take_64 (s : List Byte) : scanBack (s.take 64) 63 = scanBack s 63 := by
  refine scanBack_congr fun j le => ?_
  rw [List.getD_eq_getElem?_getD, List.getElem?_take_of_lt (by omega), ← List.getD_eq_getElem?_getD]

/-- R64: `TRUNC63` of a longer name is a cut of its first 64 bytes, at a place that they fix. -/
theorem trunc63_eq_take_64 {s : List Byte} (long : 63 < s.length) :
    trunc63 s = (s.take 64).take (scanBack (s.take 64) 63) := by
  obtain ⟨le, -⟩ := scanBack_spec s 63
  rw [scanBack_take_64, List.take_take, Nat.min_eq_left (by omega), trunc63_of_gt long]

/-- Settles O13: a name of at most 63 bytes is its first 64 bytes, and a longer one is cut by them. -/
theorem truncationReadsFirst64 : Obligations.TruncationReadsFirst64 := by
  intro s s' lengths same
  rcases Nat.lt_or_ge 63 s.length with long | short
  · have long' : 63 < s'.length := by omega
    rw [trunc63_eq_take_64 long, trunc63_eq_take_64 long', same]
  · have short' : s'.length ≤ 63 := by omega
    rw [List.take_of_length_le (by omega), List.take_of_length_le (by omega)] at same
    rw [same]

/-! ## `LDNAME` -/

/-- The name that the host wrote for `LDNAME len`: `IN[0..len−1]`. -/
def givenName (s : State) (len : Half) : List Byte := memRead s 0 len.toNat

theorem givenName_length (s : State) (len : Half) : (givenName s len).length = len.toNat :=
  memRead_length ..

/-- The bytes `LDNAME` reads are the first 64 of the name. -/
theorem memRead_min_64 (s : State) (len : Half) :
    memRead s 0 (min len.toNat 64) = (givenName s len).take 64 := by
  rcases Nat.le_total len.toNat 64 with short | long
  · rw [Nat.min_eq_left short, List.take_of_length_le (by rwa [givenName_length]), givenName]
  · rw [Nat.min_eq_right long, givenName, memRead_take s 0 long]

/-- R67: `LDNAME` keeps as many bytes as `TRUNC63` does. -/
theorem keptLength_eq (s : State) (len : Half) :
    keptLength len ((givenName s len).take 64) = (trunc63 (givenName s len)).length := by
  have size := givenName_length s len
  obtain ⟨le, -⟩ := scanBack_spec (givenName s len) 63
  rw [keptLength, Config.nameMax]
  split
  · rw [trunc63_of_le (by omega), size]
  · rw [scanBack_take_64, trunc63_of_gt (by omega), List.length_take_of_le (by omega)]

/-- R67: the bytes `LDNAME` keeps are those that `TRUNC63` does. -/
theorem take_keptLength (s : State) (len : Half) :
    ((givenName s len).take 64).take (keptLength len ((givenName s len).take 64)) =
      trunc63 (givenName s len) := by
  have le := trunc63_length_le (givenName s len)
  rw [keptLength_eq, List.take_take, Nat.min_eq_left (by omega)]
  exact (List.prefix_iff_eq_take.1 (trunc63_prefix _)).symm

/-- What `LDNAME len` makes of a state, but for `STATUS`: `NAMEFIELD` of the name is loaded. -/
def loadName (len : Half) (s : State) : State :=
  setName (toBytes 64 (nameField (givenName s len)).1) (BitVec.ofNat 6 (nameField (givenName s len)).2) s

/-- The effect of `LDNAME`, as the inversion lemma of `exec` writes it. -/
theorem loadName_eq (len : Half) (s : State) :
    setName (toBytes 64 ((memRead s 0 (min len.toNat 64)).take
        (keptLength len (memRead s 0 (min len.toNat 64)))
      ++ zeros (64 - keptLength len (memRead s 0 (min len.toNat 64)))))
      (BitVec.ofNat 6 (keptLength len (memRead s 0 (min len.toNat 64)))) s = loadName len s := by
  rw [memRead_min_64, take_keptLength, keptLength_eq]
  rfl

theorem loadName_name (len : Half) (s : State) :
    (loadName len s).name.toList = (nameField (givenName s len)).1 := by
  obtain ⟨-, -, size, -⟩ := nameFieldIsPaddedTruncation (givenName s len)
  exact toBytes_toList_of_length size

theorem loadName_nameLen (len : Half) (s : State) :
    (loadName len s).nameLen.toNat = (nameField (givenName s len)).2 := by
  have le := trunc63_length_le (givenName s len)
  exact (BitVec.toNat_ofNat ..).trans (Nat.mod_eq_of_lt (Nat.lt_succ_of_le le))

/-- `LDNAME` reads of `IN` the first 64 bytes only. -/
theorem loadName_inMem (len : Half) (s : State) {m : Memory}
    (same : ∀ a, a < 64 → m.read a = s.inMem.read a) :
    loadName len { s with inMem := m } = { loadName len s with inMem := m } := by
  have read : memRead { s with inMem := m } 0 (min len.toNat 64) = memRead s 0 (min len.toNat 64) := by
    refine List.map_congr_left fun i inside => ?_
    rw [List.mem_range] at inside
    rw [inByte, inByte, same _ (by omega)]
  rw [← loadName_eq, ← loadName_eq, read]
  rfl

/-- R67: `LDNAME` in CONFIG with a length up to its limit. -/
theorem execLdname_next {s : State} (config : s.phase = .config) {len : Half}
    (fits : len.toNat ≤ s.params.inSize) :
    exec (.ldname len) s = .next (setStatus .ok (loadName len s)) := by
  rw [← loadName_eq]
  exact (requirePhase_of_eq config ..).trans (if_neg (Nat.not_lt.2 fits))

/-- Settles O16: the word is the I16 word of opcode 0x02; `LDNAME` loads `NAMEFIELD` of the name, which
it computes from 64 bytes, or ends with one of its two errors. -/
theorem ldnameStoresNameField : Obligations.LdnameStoresNameField := by
  refine ⟨fun len => decode_of_encode_eq rfl (formatI16_eq_or 0x02#8 len), fun len s =>
    ⟨fun config fits => ?_, fun config long => ?_, fun ready => requirePhase_config_of_ready ready rfl _⟩⟩
  · refine ⟨_, execLdname_next config fits, loadName_name len s, loadName_nameLen len s, rfl,
      fun m same => ?_⟩
    refine (execLdname_next (s := { s with inMem := m }) config fits).trans ?_
    rw [loadName_inMem len s same]
    rfl
  · exact ((requirePhase_of_eq config ..).trans (if_pos long)).trans (raise_not_framesPacket_eq rfl ..)

end Sys2Proof.Safety
end

section
/-! Writes to `TX` read back (40_primitives.md R57). -/

namespace Sys2Proof.Machine

/-- Settles O10: `MemWriteBytes` is one run of writes to `TX`. -/
theorem txWritesReadBack : Obligations.TxWritesReadBack := by
  refine fun s addr bs => ⟨fun i inside => ?_, fun a outside => ?_, rfl, fun _ _ _ => rfl⟩
  · rw [memWriteBytes_eq, setTx_tx, Memory.read_writeBytes, if_pos (by omega), Nat.add_sub_cancel_left]
  · exact Memory.read_writeBytes_outside _ _ _ _ outside

end Sys2Proof.Machine
end

section
/-! Packet commands one after another: `NEXTSEQ` counts, `NEXTSEQ` with `FRAME` is `SEND`, and `FRAME` is
idempotent (46_sender.md section 3; 45_assembler.md section 2). -/

namespace Sys2Proof.Safety

open Machine

/-! ## Counting with `NEXTSEQ` -/

/-- What `NEXTSEQ` in READY makes of a state. -/
def afterNextseq (s : State) : State :=
  { s with seq := s.seq + 1#8, result := (s.seq + 1#8).setWidth 32, status := .ok }

theorem execNextseq_next {s : State} (ready : s.phase = .ready) :
    exec .nextseq s = .next (afterNextseq s) :=
  requirePhase_of_eq ready ..

/-- The result of `NEXTSEQ` is the new counter. -/
theorem afterNextseq_result (s : State) : (afterNextseq s).result.toNat = (afterNextseq s).seq.toNat :=
  BitVec.toNat_setWidth_of_le (by decide)

theorem iterate_afterNextseq_phase (s : State) (j : Nat) : (afterNextseq^[j] s).phase = s.phase := by
  induction j with
  | zero => rfl
  | succ j ih => rw [Function.iterate_succ_apply', ← ih]; rfl

/-- j successive `NEXTSEQ` advance the counter by j, modulo 256. -/
theorem iterate_afterNextseq_seq (s : State) (j : Nat) :
    (afterNextseq^[j] s).seq.toNat = (s.seq.toNat + j) % 256 := by
  induction j with
  | zero => exact (Nat.mod_eq_of_lt s.seq.isLt).symm
  | succ j ih =>
    rw [Function.iterate_succ_apply']
    refine (nextSeq_toNat _).trans ?_
    rw [ih, Nat.mod_add_mod, Nat.add_assoc]

/-- Settles O23: the states in between are the iterates of `NEXTSEQ`. -/
theorem nextseqCountsModulo256 : Obligations.NextseqCountsModulo256 := by
  refine fun k s ready => ⟨fun j => afterNextseq^[j] s, rfl, fun j _ => ?_⟩
  have counted := iterate_afterNextseq_seq s (j + 1)
  simp only [Function.iterate_succ_apply'] at counted ⊢
  exact ⟨execNextseq_next ((iterate_afterNextseq_phase s j).trans ready),
    (afterNextseq_result _).trans counted, counted⟩

/-! ## `FRAME` -/

/-- What `FRAME seq, n` in READY with at most 512 channel bytes makes of a state. -/
def afterFrame (seq : Byte) (n : Half) (s : State) : State :=
  { s with tx := (assemble (channelData s n) seq s).tx,
           txLen := (assemble (channelData s n) seq s).txLen, txValid := true, status := .ok }

theorem execFrame_eq {s : State} (ready : s.phase = .ready) (seq : Byte) {n : Half}
    (short : n.toNat ≤ 512) : exec (.frame seq n) s = .next (afterFrame seq n s) :=
  (execFrame_next ready seq short).trans
    (congrArg (fun t => Host.Outcome.next (setStatus .ok t)) (assemble_eq_update ..))

/-- `ASSEMBLE` of the channel data reads neither what `FRAME` writes nor `SEQ` and `RESULT`. -/
theorem assemble_channelData_congr {s t : State} (n : Half) (seq : Byte)
    (same : t = { s with tx := t.tx, txLen := t.txLen, txValid := t.txValid, status := t.status,
                         seq := t.seq, result := t.result }) :
    (assemble (channelData t n) seq t).tx = (assemble (channelData s n) seq s).tx ∧
      (assemble (channelData t n) seq t).txLen = (assemble (channelData s n) seq s).txLen := by
  rw [same]
  exact ⟨assemble_tx_congr _ seq rfl rfl rfl rfl rfl rfl rfl, rfl⟩

/-- Settles O26: both ways assemble the same channel bytes with the same sequence number, and `ASSEMBLE`
reads neither `SEQ` nor `RESULT`. -/
theorem sendIsNextseqThenFrame : Obligations.SendIsNextseqThenFrame := by
  intro n s ready short
  have low : (afterNextseq s).result.setWidth 8 = s.seq + 1#8 :=
    BitVec.setWidth_setWidth_of_le _ (by decide)
  have framed := execFrame_eq (s := afterNextseq s) ready (s.seq + 1#8) short
  refine ⟨_, afterFrame (s.seq + 1#8) n (afterNextseq s), _, execNextseq_next ready,
    by rw [low, framed], execSend_eq ready short, ?_⟩
  obtain ⟨tx, txLen⟩ := assemble_channelData_congr (s := s) (t := afterNextseq s) n (s.seq + 1#8) rfl
  simp only [afterFrame, tx, txLen]
  rfl

/-- Framing again writes the same packet over itself. -/
theorem afterFrame_afterFrame (seq : Byte) (n : Half) (s : State) :
    afterFrame seq n (afterFrame seq n s) = afterFrame seq n s := by
  obtain ⟨tx, txLen⟩ := assemble_channelData_congr (s := s) (t := afterFrame seq n s) n seq rfl
  rw [afterFrame, tx, txLen]
  rfl

/-- Settles O27: an error writes constants, and a packet is assembled from what `FRAME` leaves alone. -/
theorem frameTwiceIsFrameOnce : Obligations.FrameTwiceIsFrameOnce := by
  intro seq n s
  cases phase : s.phase with
  | config => exact ⟨_, execFrame_errPhase phase seq n, execFrame_errPhase (s := { s with
      txValid := false, txLen := 0#10, status := .errPhase }) phase seq n⟩
  | ready =>
    rcases Nat.lt_or_ge 512 n.toNat with long | short
    · exact ⟨_, execFrame_errLen phase seq long, execFrame_errLen (s := { s with
        txValid := false, txLen := 0#10, status := .errLen }) phase seq long⟩
    · refine ⟨_, execFrame_eq phase seq short, ?_⟩
      rw [execFrame_eq (s := afterFrame seq n s) phase seq short, afterFrame_afterFrame]

end Sys2Proof.Safety
end

section
/-! What every command does: the status it ends with and the state it may write (60_exceptions.md R100,
R108; 10_state.md). -/

namespace Sys2Proof.Machine

/-! ## The effect of `SEND` -/

/-- R95: the effect of `SEND` as one update, `STATUS` apart. -/
theorem handOver_assemble_setSeq {s : State} {n : Half} (short : n.toNat ≤ 512) :
    handOver (assemble (channelData s n) (s.seq + 1#8) (setSeq (s.seq + 1#8) s)) =
      { s with seq := s.seq + 1#8, tx := (assemble (channelData s n) (s.seq + 1#8) s).tx,
               txLen := (assemble (channelData s n) (s.seq + 1#8) s).txLen, txValid := true,
               txLog := s.txLog ++
                 [⟨mcast s.univ, Safety.packet s (channelData s n) (s.seq + 1#8)⟩] } := by
  rw [Safety.handOver_assemble ((Safety.channelData_length s n).trans_le short), Safety.assemble_setSeq]
  rfl

/-! ## The status a command ends with -/

open Laws.Opcode (number)

theorem opcodeOf_encode (i : Instr) : opcodeOf (encode i) = number i := by
  cases i with
  | ldcid => exact Laws.Opcode.ldcid
  | ldname len => exact Laws.Opcode.ldname len
  | setuniv u => exact Laws.Opcode.setuniv u
  | setprio p => exact Laws.Opcode.setprio p
  | setsync sync => exact Laws.Opcode.setsync sync
  | setopt mask => exact Laws.Opcode.setopt mask
  | commit => exact Laws.Opcode.commit
  | nextseq => exact Laws.Opcode.nextseq
  | frame seq n => exact Laws.Opcode.frame seq n
  | send n => exact Laws.Opcode.send n
  | mcaddr u => exact Laws.Opcode.mcaddr u
  | packfl flags len => exact Laws.Opcode.packfl flags len

theorem imm16_formatI16 (op : Byte) (imm : Half) : imm16 (formatI16 op imm) = imm :=
  extractLsb'_append_lower ..

theorem imm16_formatF (op a : Byte) (imm : Half) : imm16 (formatF op a imm) = imm :=
  extractLsb'_append_lower ..

/-- The first status that applies to a word with opcode `op` and `W[15:0] = imm` that decodes (R108). -/
def firstStatus (op imm : Nat) (s : State) : Status :=
  if (op ≤ 0x07 ∧ s.phase = .ready) ∨ (0x10 ≤ op ∧ op ≤ 0x12 ∧ s.phase = .config) then .errPhase
  else if (op = 0x11 ∨ op = 0x12) ∧ 512 < imm then .errLen
  else if op = 0x02 ∧ s.params.inSize < imm then .errNamelen
  else if op = 0x07 ∧ ¬(s.cidSet = true ∧ s.nameSet = true ∧ s.univSet = true) then .errUnconf
  else .ok

/-- A command that has its effect has passed every check. -/
theorem firstStatus_of_effect {s u : State} {i : Instr} (effect : Effect s i u) :
    firstStatus (number i).toNat (imm16 (encode i)).toNat s = .ok := by
  cases effect with
  | ldcid config | setuniv _ config | setprio _ config | setsync _ config | setopt _ config =>
    simp [firstStatus, number, config]
  | ldname len config fits =>
    have check : ¬s.params.inSize < len.toNat := Nat.not_lt.2 fits
    simp [firstStatus, number, config, encode, imm16_formatI16, check]
  | commit config loaded => simp [firstStatus, number, config, (configured_iff s).1 loaded]
  | nextseq ready => simp [firstStatus, number, ready]
  | frame seq n ready short =>
    have check : ¬512 < n.toNat := Nat.not_lt.2 short
    simp [firstStatus, number, ready, encode, imm16_formatF, check]
  | send n ready short =>
    have check : ¬512 < n.toNat := Nat.not_lt.2 short
    simp [firstStatus, number, ready, encode, imm16_formatI16, check]
  | mcaddr u | packfl flags len => simp [firstStatus, number]

/-- A command that raises an error raises the first that applies. -/
theorem firstStatus_of_raises {s : State} {i : Instr} {e : Status} (raises : Raises s i e) :
    firstStatus (number i).toNat (imm16 (encode i)).toNat s = e := by
  cases raises with
  | phaseConfig _ ready config =>
    have op : (number i).toNat ≤ 0x07 := by
      rcases config with rfl | ⟨_, rfl⟩ | ⟨_, rfl⟩ | ⟨_, rfl⟩ | ⟨_, rfl⟩ | ⟨_, rfl⟩ | rfl <;>
        simp [number]
    exact if_pos (.inl ⟨op, ready⟩)
  | phaseReady _ config packet =>
    have op : 0x10 ≤ (number i).toNat ∧ (number i).toNat ≤ 0x12 := by
      rcases packet with rfl | ⟨_, _, rfl⟩ | ⟨_, rfl⟩ <;> simp [number]
    exact if_pos (.inr ⟨op.1, op.2, config⟩)
  | unconf config missing =>
    have unset : ¬(s.cidSet = true ∧ s.nameSet = true ∧ s.univSet = true) := by
      rw [← configured_iff, missing]
      exact Bool.false_ne_true
    simp [firstStatus, number, config, unset]
  | lenFrame seq n ready long => simp [firstStatus, number, ready, encode, imm16_formatF, long]
  | lenSend n ready long => simp [firstStatus, number, ready, encode, imm16_formatI16, long]
  | namelen len config long => simp [firstStatus, number, config, encode, imm16_formatI16, long]

theorem status_of_exec {s t : State} {i : Instr} (run : exec i s = .next t) :
    t.status = firstStatus (number i).toNat (imm16 (encode i)).toNat s := by
  rcases exec_cases i s with ⟨u, effect, succeeded⟩ | ⟨e, raises, raised⟩
  · cases succeeded.symm.trans run
    exact (firstStatus_of_effect effect).symm
  · cases raised.symm.trans run
    exact (firstStatus_of_raises raises).symm

/-- Settles O36: a word that decodes is the encoding of its command, whose opcode and operand the order of
the checks is about. -/
theorem firstApplicableStatusIsReported : Obligations.FirstApplicableStatusIsReported := by
  intro w s
  obtain ⟨t, run⟩ := runWord_next w s
  refine ⟨t, run, fun ⟨e, illegal⟩ => ?_, fun ⟨i, decoded⟩ => ?_⟩
  · cases (runWord_of_error illegal s).symm.trans run
    rfl
  · obtain ⟨rfl, -⟩ := encode_of_decode decoded
    have status := status_of_exec ((runWord_of_ok decoded s).symm.trans run)
    rw [← opcodeOf_encode] at status
    exact status

/-! ## The state a command may write -/

theorem framesPacket_iff (i : Instr) :
    i.framesPacket = true ↔ (∃ q n, i = .frame q n) ∨ ∃ n, i = .send n := by
  cases i <;> simp [Instr.framesPacket]

/-- Settles O38: an effect writes the registers of its own command, an error `STATUS` and perhaps
`TXVALID` and `TXLEN`. -/
theorem commandsWriteOnlyTheirOwn : Obligations.CommandsWriteOnlyTheirOwn := by
  intro i s
  rcases exec_cases i s with ⟨u, effect, succeeded⟩ | ⟨e, -, raised⟩
  · refine ⟨_, succeeded, ?_⟩
    cases effect with
    | frame seq n ready short =>
      rw [Safety.assemble_eq_update]
      simp [inByte]
    | send n ready short =>
      rw [handOver_assemble_setSeq short]
      simp [inByte]
    | _ => simp [inByte]
  · refine ⟨_, raised, ?_⟩
    cases packet : i.framesPacket with
    | false => simp [packet, inByte]
    | true => simp [packet, inByte, (framesPacket_iff i).1 packet]

end Sys2Proof.Machine
end

section
/-! What a step keeps, said once for every predicate of states, and the rules over all steps
(10_state.md; 60_exceptions.md section 6; 46_sender.md sections 1 and 6). -/

namespace Sys2Proof.Machine

/-! ## Steps inverted -/

theorem raises_ne_ok {s : State} {i : Instr} {e : Status} (raises : Raises s i e) : e ≠ .ok := by
  cases raises <;> exact nofun

/-- A word ends with the effect of its command and `OK`, or with an error, which writes `STATUS` and at
most withdraws the packet. -/
theorem runWord_ends {w : Word} {s t : State} (run : runWord w s = .next t) :
    (∃ i u, decode w = .ok i ∧ Effect s i u ∧ t = setStatus .ok u) ∨
    (t.status ≠ .ok ∧
      (t = setStatus t.status s ∨ t = setStatus t.status (setTxInfo false 0#10 s))) := by
  by_cases ok : t.status = .ok
  · refine .inl ?_
    rcases runWord_cases w s with ⟨i, decoded, ran⟩ | ⟨e, -, raised⟩
    · rcases exec_cases i s with ⟨u, effect, succeeded⟩ | ⟨e, raises, raised⟩
      · exact ⟨i, u, decoded, effect, Host.Outcome.next.inj (run.symm.trans (ran.trans succeeded))⟩
      · cases run.symm.trans (ran.trans raised)
        exact absurd ok (raises_ne_ok raises)
    · cases run.symm.trans raised
      cases ok
  · refine .inr ⟨ok, ?_⟩
    have raised := runWord_eq_raise run ok
    cases packet : (decode w).toOption.any Instr.framesPacket with
    | true => exact .inr (Host.Outcome.next.inj (raised.symm.trans (raise_of_framesPacket packet ..)))
    | false => exact .inl (Host.Outcome.next.inj (raised.symm.trans (raise_of_not_framesPacket packet ..)))

/-- A step with a command word answers the status that the word ends with. -/
theorem command_of_step {s t : State} {w : Word} {later : List HostAction}
    (next : s.inbox = .command w :: later) (run : step s = .next t) :
    ∃ u, runWord w (setInbox later s) = .next u ∧ t = reply (.status u.status) u := by
  obtain ⟨u, ran⟩ := runWord_next w (setInbox later s)
  exact ⟨u, ran, Host.Outcome.next.inj (run.symm.trans (step_of_command next ran))⟩

/-- What must be shown of a predicate of states for every step whose action satisfies `may` to keep it:
that it does not look at the host's side, and that each thing a step can do to the block keeps it. -/
structure Kept (may : HostAction → Prop) (P : State → Prop) : Prop where
  /-- `STATUS`, the actions to come and the answers given may be any. -/
  host : ∀ s st acts answers, P s → P { s with status := st, inbox := acts, replies := answers }
  reset : may .reset → ∀ s, P s → P (resetBlock s)
  write : ∀ s a b, a < s.params.inSize → P s → P (setIn (s.inMem.write a b) s)
  /-- An error of `FRAME` or `SEND`. -/
  withdraw : ∀ s, P s → P (setTxInfo false 0#10 s)
  effect : ∀ w i, may (.command w) → decode w = .ok i → ∀ s u, Effect s i u → P s → P u

/-- A step is one of the five. -/
theorem Kept.step {may : HostAction → Prop} {P : State → Prop} (kept : Kept may P) {s t : State}
    (holds : P s) (allowed : ∀ act later, s.inbox = act :: later → may act)
    (run : step s = .next t) : P t := by
  have taken : ∀ later, P (setInbox later s) := fun later => kept.host s s.status later s.replies holds
  rcases step_cases run with ⟨-, rfl⟩ | ⟨later, next, rfl⟩ | ⟨a, b, later, -, inside, rfl⟩ |
    ⟨a, later, -, -, rfl⟩ | ⟨r, later, -, rfl⟩ | ⟨w, later, u, next, ran, rfl⟩
  · exact holds
  · exact kept.reset (allowed _ _ next) _ (taken later)
  · exact kept.write (setInbox later s) a b inside (taken later)
  · exact kept.host s s.status later _ holds
  · exact kept.host s s.status later _ holds
  · have ended : P u := by
      rcases runWord_ends ran with ⟨i, v, decoded, effect, rfl⟩ | ⟨-, error | error⟩
      · exact kept.host v .ok v.inbox v.replies
          (kept.effect w i (allowed _ _ next) decoded _ _ effect (taken later))
      · rw [error]
        exact kept.host s u.status later s.replies holds
      · rw [error]
        exact kept.host _ u.status later s.replies (kept.withdraw _ (taken later))
    exact kept.host u u.status u.inbox _ ended

/-- The case of a predicate that every step keeps. -/
theorem Kept.every_step {P : State → Prop} (kept : Kept (fun _ => True) P) {s t : State} (holds : P s)
    (run : Machine.step s = .next t) : P t :=
  kept.step holds (fun _ _ _ => trivial) run

/-! ## The parameters -/

/-- No step changes the parameters. -/
theorem params_kept (p : Config.Params) : Kept (fun _ => True) fun s => s.params = p where
  host _ _ _ _ holds := holds
  reset _ _ holds := holds
  write _ _ _ _ holds := holds
  withdraw _ holds := holds
  effect _ _ _ _ _ _ effect holds := by
    cases effect with
    | frame => rwa [Safety.assemble_eq_update]
    | send _ _ short => rwa [handOver_assemble_setSeq short]
    | ldcid | ldname | setuniv | setprio | setsync | setopt | commit | nextseq | mcaddr | packfl =>
      exact holds

/-- Settles O60: two settings by cases, and what every step keeps. -/
theorem parametersStayAsDecided : Obligations.ParametersStayAsDecided := by
  refine ⟨rfl, rfl, fun a => ?_, fun s t run => (params_kept s.params).every_step rfl run⟩
  cases a with
  | formula => exact .inl rfl
  | printed => exact .inr rfl

/-! ## The configuration in READY -/

/-- READY with the configuration of `s`. -/
def FrozenAs (s t : State) : Prop :=
  t.phase = .ready ∧ t.cid = s.cid ∧ t.name = s.name ∧ t.nameLen = s.nameLen ∧ t.prio = s.prio ∧
    t.sync = s.sync ∧ t.opt = s.opt ∧ t.univ = s.univ ∧ t.cidSet = s.cidSet ∧ t.nameSet = s.nameSet ∧
    t.univSet = s.univSet

/-- The commands that write the configuration or the phase have no effect in READY (10_state.md R21). -/
theorem frozenAs_kept (s : State) : Kept (· ≠ .reset) (FrozenAs s) where
  host _ _ _ _ holds := holds
  reset no := absurd rfl no
  write _ _ _ _ holds := holds
  withdraw _ holds := holds
  effect _ _ _ _ _ _ effect holds := by
    have ready := holds.1
    cases effect with
    | ldcid config | ldname _ config | setuniv _ config | setprio _ config | setsync _ config
    | setopt _ config | commit config => exact absurd (config.symm.trans ready) nofun
    | frame => rwa [Safety.assemble_eq_update]
    | send _ _ short => rwa [handOver_assemble_setSeq short]
    | nextseq | mcaddr | packfl => exact holds

/-- Settles O48: a READY state is frozen as it is, and every step but `RESET` keeps that. -/
theorem readyFreezesConfiguration : Obligations.ReadyFreezesConfiguration := by
  intro s t ready notReset run
  refine (frozenAs_kept s).step ⟨ready, rfl, rfl, rfl, rfl, rfl, rfl, rfl, rfl, rfl, rfl⟩ ?_ run
  rintro _ later next rfl
  exact notReset later next

/-! ## The sequence counter and the output history -/

/-- 10_state.md R17: `NEXTSEQ` and `SEND` advance the counter. -/
theorem seq_of_effect {s u : State} {i : Instr} (effect : Effect s i u)
    (advances : i = .nextseq ∨ ∃ n, i = .send n) : u.seq = s.seq + 1#8 := by
  cases effect with
  | nextseq => rfl
  | send _ _ short => rw [handOver_assemble_setSeq short]
  | ldcid | ldname | setuniv | setprio | setsync | setopt | commit | frame | mcaddr | packfl =>
    simp at advances

/-- 10_state.md R17: no other command writes it. -/
theorem seq_of_effect_of_ne {s u : State} {i : Instr} (effect : Effect s i u)
    (holds : ¬(i = .nextseq ∨ ∃ n, i = .send n)) : u.seq = s.seq := by
  cases effect with
  | nextseq | send => simp at holds
  | frame => rw [Safety.assemble_eq_update]
  | ldcid | ldname | setuniv | setprio | setsync | setopt | commit | mcaddr | packfl => rfl

theorem assemble_txLog (dmx : List Byte) (seq : Byte) (s : State) :
    (assemble dmx seq s).txLog = s.txLog := by
  rw [Safety.assemble_eq_update]

theorem assemble_univ (dmx : List Byte) (seq : Byte) (s : State) :
    (assemble dmx seq s).univ = s.univ := by
  rw [Safety.assemble_eq_update]

/-- R98: handing over leaves the packet in `TX` and adds it to the history. -/
theorem handOver_txLog (s : State) : (handOver s).txLog =
    s.txLog ++ [⟨0xEFFF0000#32 ||| s.univ.setWidth 32, txBytes (handOver s)⟩] := rfl

/-- 10_state.md R28: only `SEND` hands over a packet, the one it has put into `TX`. -/
theorem txLog_of_effect {s u : State} {i : Instr} (effect : Effect s i u) :
    u.txLog = s.txLog ∨ ∃ n, i = .send n ∧ u.txValid = true ∧
      u.txLog = s.txLog ++ [⟨0xEFFF0000#32 ||| s.univ.setWidth 32, txBytes u⟩] := by
  cases effect with
  | send n _ short =>
    refine .inr ⟨n, rfl, by rw [handOver_assemble_setSeq short], ?_⟩
    rw [handOver_txLog, assemble_txLog, assemble_univ, setSeq_txLog, setSeq_univ]
  | frame => exact .inl (by rw [Safety.assemble_eq_update])
  | ldcid | ldname | setuniv | setprio | setsync | setopt | commit | nextseq | mcaddr | packfl =>
    exact .inl rfl

/-- A step other than `RESET` leaves the counter and the history alone, or is the effect of a command. -/
theorem step_effect_of_ne_reset {s t : State} (notReset : ∀ later, s.inbox ≠ .reset :: later)
    (run : step s = .next t) :
    (t.seq = s.seq ∧ t.txLog = s.txLog) ∨
    ∃ w later i u, s.inbox = .command w :: later ∧ decode w = .ok i ∧ Effect (setInbox later s) i u ∧
      t = reply (.status .ok) (setStatus .ok u) := by
  rcases step_cases run with ⟨-, rfl⟩ | ⟨later, next, -⟩ | ⟨a, b, later, -, -, rfl⟩ |
    ⟨a, later, -, -, rfl⟩ | ⟨r, later, -, rfl⟩ | ⟨w, later, u, next, ran, rfl⟩
  · exact .inl ⟨rfl, rfl⟩
  · exact absurd next (notReset later)
  · exact .inl ⟨rfl, rfl⟩
  · exact .inl ⟨rfl, rfl⟩
  · exact .inl ⟨rfl, rfl⟩
  · rcases runWord_ends ran with ⟨i, v, decoded, effect, rfl⟩ | ⟨-, error | error⟩
    · exact .inr ⟨w, later, i, v, next, decoded, effect, rfl⟩
    · exact .inl (by rw [error]; exact ⟨rfl, rfl⟩)
    · exact .inl (by rw [error]; exact ⟨rfl, rfl⟩)

/-- Settles O49: the effect of `NEXTSEQ` or `SEND`, a reset, or neither. -/
theorem sequenceCounterAdvancesHoldsOrResets : Obligations.SequenceCounterAdvancesHoldsOrResets := by
  refine fun s t run => ⟨fun w later next advances ok => ?_, fun later next => ?_,
    fun notReset notAdvanced => ?_⟩
  · obtain ⟨u, ran, rfl⟩ := command_of_step next run
    rcases runWord_ends ran with ⟨i, v, decoded, effect, rfl⟩ | ⟨error, -⟩
    · rw [decoded] at advances
      have advanced := seq_of_effect effect (by simpa using advances)
      exact advanced
    · exact absurd ok error
  · cases (step_of_action next).symm.trans run
    rfl
  · rcases step_effect_of_ne_reset notReset run with ⟨same, -⟩ | ⟨w, later, i, u, next, decoded, effect, rfl⟩
    · exact same
    · have held := seq_of_effect_of_ne effect fun advances =>
        notAdvanced w later next (by simpa [decoded] using advances) rfl
      exact held

/-- Settles O50: of all steps but `RESET` only the effect of `SEND` writes the history. -/
theorem outputHistoryGrowsOnlyBySend : Obligations.OutputHistoryGrowsOnlyBySend := by
  intro s t notReset run
  rcases step_effect_of_ne_reset notReset run with ⟨-, same⟩ | ⟨w, later, i, u, next, decoded, effect, rfl⟩
  · exact .inl same
  · rcases txLog_of_effect effect with same | ⟨n, rfl, valid, appended⟩
    · exact .inl same
    · exact .inr ⟨w, later, n, next, decoded, rfl, valid, appended⟩

end Sys2Proof.Machine
end

section
/-! The invariants of the state hold after reset and every step keeps them (10_state.md R12, R20, R23 to
R25, R28; 45_assembler.md R82, R83). -/

namespace Sys2Proof.Safety

open Machine

/-! ## Both memories -/

/-- A listed address reads as a byte. -/
theorem read_isSome_of_mem {m : Memory} {c : Host.Cell} (listed : c ∈ m) :
    (m.read c.1).isSome = true := by
  induction m with
  | nil => simp at listed
  | cons kv m ih =>
    rw [Memory.read_cons]
    split
    · rfl
    · rename_i other
      rcases List.mem_cons.1 listed with rfl | rest
      · exact absurd rfl other
      · exact ih rest

theorem wrRoot_tx_wf {s : State} (wf : s.tx.wf) (total : Half) : (wrRoot total s).tx.wf := by
  rw [wrRoot_eq, setTx_tx]
  iterate 6 apply Memory.wf_writeBytes
  exact wf

/-- `ASSEMBLE` leaves `TX` in canonical form, as runs of writes over a zero-filled buffer. -/
theorem assemble_tx_wf {dmx : List Byte} (fits : dmx.length ≤ 512) (seq : Byte) (s : State) :
    (assemble dmx seq s).tx.wf := by
  have large : 126 ≤ (totalLength dmx.length).toNat := by
    rw [totalLength_toNat fits]
    omega
  rw [assemble, setTxInfo_tx, wrDmp_run large, setTx_tx, wrFrame_run large, setTx_tx]
  exact Memory.wf_writeBytes (Memory.wf_writeBytes (wrRoot_tx_wf (Memory.wf_zeroFilled _) _) ..) ..

/-- `ASSEMBLE` lists no address beyond the largest packet, since it lists none beyond its own. -/
theorem assemble_tx_below {dmx : List Byte} (fits : dmx.length ≤ 512) (seq : Byte) (s : State) :
    ∀ c ∈ (assemble dmx seq s).tx, c.1 < 638 := by
  intro c listed
  have inside := read_isSome_of_mem listed
  rw [assemble_tx_read fits, isSome_getElem?, packet_length] at inside
  omega

theorem channelData_fits (s : State) {n : Half} (short : n.toNat ≤ 512) :
    (channelData s n).length ≤ 512 :=
  (channelData_length s n).trans_le short

theorem memoryCanonical_kept : Kept (fun _ => True) MemoryCanonical where
  host _ _ _ _ holds := holds
  reset _ _ _ := ⟨.nil, .nil, nofun, nofun⟩
  write s a b inside := by
    rintro ⟨inWf, txWf, inBelow, txBelow⟩
    exact ⟨Memory.wf_write inWf a b, txWf, Memory.write_below inBelow inside b, txBelow⟩
  withdraw _ holds := holds
  effect _ _ _ _ s _ effect holds := by
    obtain ⟨inWf, txWf, inBelow, txBelow⟩ := holds
    cases effect with
    | frame seq n _ short =>
      have fits := channelData_fits s short
      rw [assemble_eq_update]
      exact ⟨inWf, assemble_tx_wf fits seq s, inBelow, assemble_tx_below fits seq s⟩
    | send n _ short =>
      have fits := channelData_fits s short
      rw [handOver_assemble_setSeq short]
      exact ⟨inWf, assemble_tx_wf fits (s.seq + 1#8) s, inBelow,
        assemble_tx_below fits (s.seq + 1#8) s⟩
    | ldcid | ldname | setuniv | setprio | setsync | setopt | commit | nextseq | mcaddr | packfl =>
      exact ⟨inWf, txWf, inBelow, txBelow⟩

/-- Settles O52: a host write is checked against `IN_SIZE`, and a packet has at most 638 bytes. -/
theorem stepKeepsMemoryCanonical : Obligations.StepKeepsMemoryCanonical :=
  fun _ _ holds run => memoryCanonical_kept.every_step holds run

/-! ## `TXVALID`, `TXLEN` and `PHASE` -/

theorem txInfoLegal_kept : Kept (fun _ => True) TxInfoLegal where
  host _ _ _ _ holds := holds
  reset _ _ _ := ⟨nofun, fun _ => rfl⟩
  write _ _ _ _ holds := holds
  withdraw _ _ := ⟨nofun, fun _ => rfl⟩
  effect _ _ _ _ s _ effect holds := by
    have assembled : ∀ (n : Half) (seq : Byte), n.toNat ≤ 512 →
        126 ≤ (assemble (channelData s n) seq s).txLen.toNat ∧
          (assemble (channelData s n) seq s).txLen.toNat ≤ 638 := by
      intro n seq short
      rw [assemble_txLen_toNat (channelData_fits s short), channelData_length]
      omega
    cases effect with
    | frame seq n ready short =>
      rw [assemble_eq_update]
      obtain ⟨low, high⟩ := assembled n seq short
      exact ⟨fun _ => ⟨low, high, ready⟩, nofun⟩
    | send n ready short =>
      rw [handOver_assemble_setSeq short]
      obtain ⟨low, high⟩ := assembled n (s.seq + 1#8) short
      exact ⟨fun _ => ⟨low, high, ready⟩, nofun⟩
    | commit config =>
      refine ⟨fun valid => ?_, holds.2⟩
      obtain ⟨low, high, -⟩ := holds.1 valid
      exact ⟨low, high, rfl⟩
    | ldcid | ldname | setuniv | setprio | setsync | setopt | nextseq | mcaddr | packfl => exact holds

/-- Settles O53: only `FRAME` and `SEND` write the two, in READY and with a total of 126 to 638. -/
theorem stepKeepsTxInfoLegal : Obligations.StepKeepsTxInfoLegal :=
  fun _ _ holds run => txInfoLegal_kept.every_step holds run

/-! ## `NAME` -/

/-- R66: the name field is zero from the length of the name on. -/
theorem loadName_padded (len : Half) (s : State) : NamePadded (loadName len s) := by
  intro _ i inside beyond
  rw [loadName_nameLen] at beyond
  have field : (loadName len s).name.toList[i]? = some 0x00#8 := by
    rw [loadName_name, nameField, List.getElem?_append_right beyond]
    refine List.getElem?_replicate_of_lt ?_
    have le := trunc63_length_le (givenName s len)
    simp only [nameField, Config.nameField] at beyond ⊢
    omega
  simpa [inside] using field

theorem namePadded_kept : Kept (fun _ => True) NamePadded where
  host _ _ _ _ holds := holds
  reset _ _ _ := nofun
  write _ _ _ _ holds := holds
  withdraw _ holds := holds
  effect _ _ _ _ s _ effect holds := by
    cases effect with
    | ldname len =>
      rw [loadName_eq]
      exact loadName_padded len s
    | frame => rwa [assemble_eq_update]
    | send _ _ short => rwa [handOver_assemble_setSeq short]
    | ldcid | setuniv | setprio | setsync | setopt | commit | nextseq | mcaddr | packfl => exact holds

/-- Settles O54: only `LDNAME` writes the name, and it writes a padded field. -/
theorem stepKeepsNamePadded : Obligations.StepKeepsNamePadded :=
  fun _ _ holds run => namePadded_kept.every_step holds run

/-! ## READY -/

theorem readyIsConfigured_kept : Kept (fun _ => True) ReadyIsConfigured where
  host _ _ _ _ holds := holds
  reset _ _ _ := nofun
  write _ _ _ _ holds := holds
  withdraw _ holds := holds
  effect _ _ _ _ s _ effect holds := by
    cases effect with
    | commit _ loaded => exact fun _ => (configured_iff s).1 loaded
    | ldcid config | ldname _ config | setuniv _ config =>
      exact fun ready => absurd (config.symm.trans ready) nofun
    | frame => rwa [assemble_eq_update]
    | send _ _ short => rwa [handOver_assemble_setSeq short]
    | setprio | setsync | setopt | nextseq | mcaddr | packfl => exact holds

/-- Settles O55: `COMMIT` checks the set-flags, and nothing but `RESET` clears one. -/
theorem stepKeepsReadyConfigured : Obligations.StepKeepsReadyConfigured :=
  fun _ _ holds run => readyIsConfigured_kept.every_step holds run

/-! ## The packet in `TX` -/

theorem txHoldsPacket_assemble {s : State} (ready : s.phase = .ready) {dmx : List Byte}
    (fits : dmx.length ≤ 512) (seq : Byte) : TxHoldsPacket (assemble dmx seq s) := by
  have same : packet (assemble dmx seq s) dmx seq = packet s dmx seq := by
    rw [assemble_eq_update]
    rfl
  refine fun _ => ⟨?_, dmx, seq, fits, assemble_txLen_toNat fits seq s, fun a => ?_⟩
  · rw [assemble_eq_update]
    exact ready
  · rw [assemble_tx_read fits, same]

/-- The history is no part of the packet. -/
theorem txHoldsPacket_handOver {s : State} (holds : TxHoldsPacket s) : TxHoldsPacket (handOver s) := holds

/-- R82: `SEND` assembles like `FRAME`, with the sequence number it has just advanced to. -/
theorem txHoldsPacket_send {s : State} (ready : s.phase = .ready) {n : Half} (short : n.toNat ≤ 512) :
    TxHoldsPacket (handOver (assemble (channelData s n) (s.seq + 1#8) (setSeq (s.seq + 1#8) s))) :=
  txHoldsPacket_handOver
    (txHoldsPacket_assemble ((setSeq_phase s _).trans ready) (channelData_fits s short) (s.seq + 1#8))

theorem txHoldsPacket_kept : Kept (fun _ => True) TxHoldsPacket where
  host _ _ _ _ holds := holds
  reset _ _ _ := nofun
  write _ _ _ _ holds := holds
  withdraw _ _ := nofun
  effect _ _ _ _ s _ effect holds := by
    cases effect with
    | frame seq n ready short => exact txHoldsPacket_assemble ready (channelData_fits s short) seq
    | send n ready short => exact txHoldsPacket_send ready short
    | nextseq | mcaddr | packfl => exact holds
    | ldcid config | ldname _ config | setuniv _ config | setprio _ config | setsync _ config
    | setopt _ config | commit config =>
      exact fun valid => absurd (config.symm.trans (holds valid).1) nofun

/-- Settles O57: the packet in `TX` is of a configuration that READY freezes. -/
theorem stepKeepsTxHoldsPacket : Obligations.StepKeepsTxHoldsPacket :=
  fun _ _ holds run => txHoldsPacket_kept.every_step holds run

/-! ## The length fields of the packet -/

/-- A length below 4096 is read back from under the nibble of its flags+length field (R51). -/
theorem mask_flagsAndLength {len : Half} {k : Nat} (le : k ≤ len.toNat) (small : len.toNat < 4096) :
    (0x7#4 ++ BitVec.ofNat 12 (len.toNat - k) : Half) &&& 0x0FFF#16 = len - BitVec.ofNat 16 k := by
  have low : (0x7#4 ++ BitVec.ofNat 12 (len.toNat - k) : Half) &&& 0x0FFF#16 =
      (BitVec.ofNat 12 (len.toNat - k)).setWidth 16 := by
    rw [show (0x0FFF#16 : Half) = 0#4 ++ BitVec.allOnes 12 from rfl, BitVec.and_append,
      BitVec.and_allOnes, BitVec.setWidth_eq_append (by decide)]
    rfl
  rw [low, ← half_sub_eq le (by omega)]
  apply BitVec.eq_of_toNat_eq
  simp only [BitVec.toNat_setWidth, BitVec.toNat_ofNat]
  omega

/-- R83: a packet of the block's configuration is consistent with its own length. -/
theorem txSelfConsistent_of_txHoldsPacket {s : State} (holds : TxHoldsPacket s) : TxSelfConsistent s := by
  intro valid
  obtain ⟨-, dmx, seq, fits, len, read⟩ := holds valid
  have total : (s.txLen.setWidth 16).toNat = 126 + dmx.length :=
    (BitVec.toNat_setWidth_of_le (by decide)).trans len
  have bound := frameLenAdj_value_le s.params.frameLenAdj
  have countValue : 126 + dmx.length - 125 = 1 + dmx.length := by omega
  have rows : HoldsFields s 0 (wireRows s dmx seq) := by
    refine holdsFields_of_read fun i _ => ?_
    rw [Nat.zero_add, read, packet_eq_wireRows]
  simp only [HoldsFields, wireRows, flagsAndLength_eq_be, be_length, acnPid_length, Vector.length_toList,
    List.length_cons, List.length_nil, Nat.reduceAdd] at rows
  obtain ⟨-, -, -, rootLen, -, -, frameLen, -, -, -, -, -, -, -, dmpLen, -, -, -, -, count, -⟩ := rows
  rw [← total] at rootLen frameLen dmpLen
  refine ⟨fun a => ?_, ?_, ?_, ?_, ?_⟩
  · rw [read, isSome_getElem?, packet_length, len]
  · rw [field16_of_txRun rootLen, Option.map_some, mask_flagsAndLength (by omega) (by omega)]
  · rw [field16_of_txRun frameLen, Option.map_some, mask_flagsAndLength (by omega) (by omega),
      BitVec.ofNat_toNat, BitVec.setWidth_eq]
  · rw [field16_of_txRun dmpLen, Option.map_some, mask_flagsAndLength (by omega) (by omega)]
  · rw [field16_of_txRun count, ← half_sub_eq (by omega) (by omega), total, countValue]

theorem txSelfConsistent_kept : Kept (fun _ => True) TxSelfConsistent where
  host _ _ _ _ holds := holds
  reset _ _ _ := nofun
  write _ _ _ _ holds := holds
  withdraw _ _ := nofun
  effect _ _ _ _ s _ effect holds := by
    cases effect with
    | frame seq n ready short =>
      exact txSelfConsistent_of_txHoldsPacket
        (txHoldsPacket_assemble ready (channelData_fits s short) seq)
    | send n ready short =>
      exact txSelfConsistent_of_txHoldsPacket (txHoldsPacket_send ready short)
    | ldcid | ldname | setuniv | setprio | setsync | setopt | commit | nextseq | mcaddr | packfl =>
      exact holds

/-- Settles O56: an assembled packet is consistent, and nothing else writes `TX`, `TXLEN` or the
parameters while `TXVALID` stays 1. -/
theorem stepKeepsTxSelfConsistent : Obligations.StepKeepsTxSelfConsistent :=
  fun _ _ holds run => txSelfConsistent_kept.every_step holds run

/-! ## The output history -/

theorem logLegal_kept : Kept (fun _ => True) LogLegal where
  host _ _ _ _ holds := holds
  reset _ _ _ := ⟨fun _ => rfl, nofun⟩
  write _ _ _ _ holds := holds
  withdraw _ holds := holds
  effect _ _ _ _ s _ effect holds := by
    obtain ⟨empty, entries⟩ := holds
    cases effect with
    | setuniv u config =>
      refine ⟨empty, fun d logged => ?_⟩
      have none : d ∈ ([] : List Datagram) := empty config ▸ logged
      exact absurd none List.not_mem_nil
    | commit => exact ⟨nofun, entries⟩
    | frame =>
      rw [assemble_eq_update]
      exact ⟨empty, entries⟩
    | send n ready short =>
      rw [handOver_assemble_setSeq short]
      refine ⟨fun config => absurd (config.symm.trans ready) nofun, fun d logged => ?_⟩
      rcases List.mem_append.1 logged with old | new
      · exact entries d old
      · rw [List.mem_singleton] at new
        subst new
        refine ⟨rfl, ?_⟩
        simp only [packet_length, channelData_length]
        omega
    | ldcid | ldname | setprio | setsync | setopt | nextseq | mcaddr | packfl => exact ⟨empty, entries⟩

/-- Settles O58: `SEND` logs a packet for the group of the universe, which changes in CONFIG only, with an
empty history. -/
theorem stepKeepsLogLegal : Obligations.StepKeepsLogLegal :=
  fun _ _ holds run => logLegal_kept.every_step holds run

/-- Byte 111 of a packet is its sequence number (43_framing_layer.md R72). -/
theorem packet_getElem?_111 (s : State) (dmx : List Byte) (seq : Byte) :
    (packet s dmx seq)[111]? = some seq := by
  simp [packet, framingLayer, List.getElem?_append]

/-- Without `NEXTSEQ`, every advance of the counter is an entry of the history. -/
theorem logNumbered_kept :
    Kept (fun act => ∀ w, act = .command w → decode w ≠ .ok .nextseq) LogNumbered where
  host _ _ _ _ holds := holds
  reset _ _ _ := ⟨rfl, nofun⟩
  write _ _ _ _ holds := holds
  withdraw _ holds := holds
  effect w _ may decoded s _ effect holds := by
    obtain ⟨counter, entries⟩ := holds
    cases effect with
    | nextseq => exact absurd decoded (may w rfl)
    | frame =>
      rw [assemble_eq_update]
      exact ⟨counter, entries⟩
    | send n _ short =>
      have advanced : s.seq + 1#8 = BitVec.ofNat 8 (s.txLog.length + 1) := by
        rw [counter, BitVec.ofNat_add]
      rw [handOver_assemble_setSeq short]
      refine ⟨?_, fun i inside => ?_⟩
      · rw [advanced, List.length_append, List.length_singleton]
      · simp only [List.length_append, List.length_singleton] at inside
        rcases Nat.lt_or_ge i s.txLog.length with old | new
        · simpa only [List.getElem_append_left old] using entries i old
        · obtain rfl : i = s.txLog.length := by omega
          simp only [List.getElem_concat_length, packet_getElem?_111, advanced]
    | ldcid | ldname | setuniv | setprio | setsync | setopt | commit | mcaddr | packfl =>
      exact ⟨counter, entries⟩

/-- Settles O59: the entry that `SEND` adds carries the counter it has just advanced. -/
theorem stepKeepsLogNumbered : Obligations.StepKeepsLogNumbered := by
  intro s t holds noNextseq run
  refine logNumbered_kept.step holds ?_ run
  rintro _ later next w rfl
  exact noNextseq w later next

/-! ## Reset -/

/-- Settles O51: in CONFIG, with no packet, no name loaded and nothing logged, every invariant holds. -/
theorem resetMeetsInvariants : Obligations.ResetMeetsInvariants :=
  ⟨⟨.nil, .nil, nofun, nofun⟩, ⟨nofun, fun _ => rfl⟩, nofun, nofun, nofun, nofun, ⟨fun _ => rfl, nofun⟩,
    ⟨rfl, nofun⟩⟩

end Sys2Proof.Safety
end
